-- ==== Sys2Proof/Word.lean ====
section
/-! DEFINITION. The word types: a frame byte and a request or response word (R9, R11). -/

namespace Sys2Proof

/-- One byte of the raw frame (BYTE_WIDTH of R9). -/
abbrev Byte := BitVec 8

/-- A request word (REQ_WIDTH of R9) or the DATA word of a response (DATA_WIDTH of R9). -/
abbrev Word := BitVec 64

end Sys2Proof
end

