-- ==== Sys2Proof/Config.lean ====
section
/-! DEFINITION. The block's one fixed configuration (R3, R9): the literals of I9, each a named constant with the
spec's value as its only value. They are unaudited (N12), log 12. The other parameters of R9 are widths and stand in
the types: FRAME_LEN 7 and WIDX_WIDTH 3 in `Machine.State`, FIELD_WIDTH 24 in `Machine.pRaw` and `Machine.tRaw`,
MODE_WIDTH 2 in `Machine.statusMode`, STATUS_CODES 6 and SENSOR_TYPES 3 in `Machine.StatusCode` and
`Machine.SensorType`, OP_WIDTH 4, PRESET_ID_WIDTH 4 and FULL_SCALE_WIDTH 8 in `Instr` and `opField`, PRESETS 14 in
`Machine.romTable`. -/

namespace Sys2Proof.Config

/-- ZERO_REF_GA of R9: the zero reference of Gage and Absolute sensors (R52). -/
def zeroRefGA : BitVec 16 := 1638#16

/-- ZERO_REF_D of R9: the zero reference of Differential sensors (R52). -/
def zeroRefD : BitVec 16 := 8192#16

/-! The seven preset full scales in whole PSI, in the order of R33. -/

def scale0 : Byte := 1#8
def scale1 : Byte := 2#8
def scale2 : Byte := 5#8
def scale3 : Byte := 10#8
def scale4 : Byte := 20#8
def scale5 : Byte := 30#8
def scale6 : Byte := 60#8

end Sys2Proof.Config
end

