-- ==== Sys2Proof/Syntax.lean ====
section
/-! DEFINITION. The eleven operations of R26, one constructor per row of spec/opcode_table.json, with the operand
fields of R25 at their exact widths. -/

namespace Sys2Proof

/-- An operation with its operands. Every value of these fields is encodable; PID 7 and 15 and TYPE 3 are decoded as
their operation and refused by it (R39). -/
inductive Instr where
  /-- FRM_LOAD (R40): the seven frame bytes in wire order. -/
  | frmLoad (b0 b1 b2 b3 b4 b5 b6 : Byte)
  /-- FRM_PUSH (R41): the next frame byte. -/
  | frmPush (b : Byte)
  /-- FRM_CLEAR (R42). -/
  | frmClear
  /-- FRM_STAT (R43). -/
  | frmStat
  /-- ST_FIELDS (R45). -/
  | stFields
  /-- ST_CODE (R46). -/
  | stCode
  /-- P_RAW (R49). -/
  | pRaw
  /-- T_RAW (R50). -/
  | tRaw
  /-- DECODE_ALL (R51). -/
  | decodeAll
  /-- PRESET_LOOKUP (R54): the preset id. -/
  | presetLookup (pid : BitVec 4)
  /-- CAL_DERIVE (R55): the sensor type and the full scale in whole PSI. -/
  | calDerive (ty : BitVec 2) (fs : Byte)
  deriving DecidableEq, Repr

end Sys2Proof
end

