-- ==== Sys2Proof/WellFormed.lean ====
section
/-! DEFINITION. Which 64-bit words are well-formed requests (R26, R27), read off the match and mask columns of
spec/opcode_table.json, and not from the decoder, so that the two can be compared. An `Instr` needs no check of its
own: its operand fields have exactly the widths of R25 (log 16). -/

namespace Sys2Proof

/-- One row of the opcode table: the bits `mask` selects must equal `pattern`. -/
structure OpcodeRow where
  pattern : Word
  mask    : Word
  deriving DecidableEq, Repr

/-- The eleven rows, in the table's order. -/
def opcodeTable : List OpcodeRow :=
  [ ⟨0x1000000000000000#64, 0xFF00000000000000#64⟩,
    ⟨0x2000000000000000#64, 0xFFFFFFFFFFFFFF00#64⟩,
    ⟨0x3000000000000000#64, 0xFFFFFFFFFFFFFFFF#64⟩,
    ⟨0x4000000000000000#64, 0xFFFFFFFFFFFFFFFF#64⟩,
    ⟨0x5000000000000000#64, 0xFFFFFFFFFFFFFFFF#64⟩,
    ⟨0x6000000000000000#64, 0xFFFFFFFFFFFFFFFF#64⟩,
    ⟨0x7000000000000000#64, 0xFFFFFFFFFFFFFFFF#64⟩,
    ⟨0x8000000000000000#64, 0xFFFFFFFFFFFFFFFF#64⟩,
    ⟨0x9000000000000000#64, 0xFFFFFFFFFFFFFFFF#64⟩,
    ⟨0xA000000000000000#64, 0xFFFFFFFFFFFFFFF0#64⟩,
    ⟨0xB000000000000000#64, 0xFFFFFFFFFFFFFC00#64⟩ ]

/-- The word carries the row's fixed bits. -/
def OpcodeRow.fits (r : OpcodeRow) (w : Word) : Bool := w &&& r.mask == r.pattern

/-- The check: the word fits a row of the table, its reserved bits included (R26, R27). -/
def WellFormed (w : Word) : Bool := opcodeTable.any fun r => r.fits w

end Sys2Proof
end

