-- ==== Sys2Proof/Decode.lean ====
section
/-! DEFINITION. The decoder of request words (R25 to R28), total on every 64-bit word and rejecting by name; then the
encoder, written from R25, R26 and R38; then the host's view of the decoder. -/

namespace Sys2Proof

/-! ## Operation codes (R26) -/

def opFrmLoad : BitVec 4 := 0x1#4
def opFrmPush : BitVec 4 := 0x2#4
def opFrmClear : BitVec 4 := 0x3#4
def opFrmStat : BitVec 4 := 0x4#4
def opStFields : BitVec 4 := 0x5#4
def opStCode : BitVec 4 := 0x6#4
def opPRaw : BitVec 4 := 0x7#4
def opTRaw : BitVec 4 := 0x8#4
def opDecodeAll : BitVec 4 := 0x9#4
def opPresetLookup : BitVec 4 := 0xA#4
def opCalDerive : BitVec 4 := 0xB#4

/-- The operation code of an operation (R26). -/
def Instr.op : Instr → BitVec 4
  | .frmLoad _ _ _ _ _ _ _ => opFrmLoad
  | .frmPush _ => opFrmPush
  | .frmClear => opFrmClear
  | .frmStat => opFrmStat
  | .stFields => opStFields
  | .stCode => opStCode
  | .pRaw => opPRaw
  | .tRaw => opTRaw
  | .decodeAll => opDecodeAll
  | .presetLookup _ => opPresetLookup
  | .calDerive _ _ => opCalDerive

/-! ## Fields of a request word (R25) -/

/-- OP = REQ[63:60]. -/
def opField (w : Word) : BitVec 4 := w.extractLsb' 60 4

/-- Frame byte i of the operand, REQ[55-8i : 48-8i] (R21). -/
def frameByteField (w : Word) (i : Nat) : Byte := w.extractLsb' (48 - 8 * i) 8

/-- BYTE and FS, both REQ[7:0]. -/
def lowByteField (w : Word) : Byte := w.extractLsb' 0 8

/-- PID = REQ[3:0]. -/
def pidField (w : Word) : BitVec 4 := w.extractLsb' 0 4

/-- TYPE = REQ[9:8]. -/
def typeField (w : Word) : BitVec 2 := w.extractLsb' 8 2

/-- RSVMASK of R27: the bits that must be 0 in a request with a legal OP. -/
def rsvMask (op : BitVec 4) : Word :=
  if op = opFrmLoad then 0x0F00000000000000#64
  else if op = opFrmPush then 0x0FFFFFFFFFFFFF00#64
  else if op = opPresetLookup then 0x0FFFFFFFFFFFFFF0#64
  else if op = opCalDerive then 0x0FFFFFFFFFFFFC00#64
  else 0x0FFFFFFFFFFFFFFF#64

/-! ## The decoder (R28) -/

/-- The operation that the OP field selects, with its operands; none where OP is illegal (R26). -/
def selectOp (w : Word) : Option Instr :=
  if opField w = opFrmLoad then
    some (.frmLoad (frameByteField w 0) (frameByteField w 1) (frameByteField w 2) (frameByteField w 3)
      (frameByteField w 4) (frameByteField w 5) (frameByteField w 6))
  else if opField w = opFrmPush then some (.frmPush (lowByteField w))
  else if opField w = opFrmClear then some .frmClear
  else if opField w = opFrmStat then some .frmStat
  else if opField w = opStFields then some .stFields
  else if opField w = opStCode then some .stCode
  else if opField w = opPRaw then some .pRaw
  else if opField w = opTRaw then some .tRaw
  else if opField w = opDecodeAll then some .decodeAll
  else if opField w = opPresetLookup then some (.presetLookup (pidField w))
  else if opField w = opCalDerive then some (.calDerive (typeField w) (lowByteField w))
  else none

/-- Why a word is no operation (R28). -/
inductive Reject where
  /-- The OP field names no operation. -/
  | illegalOp
  /-- The OP is legal and a reserved bit is 1. -/
  | rsvdNonzero
  deriving DecidableEq, Repr

/-- What the decoder makes of a word: one of the thirteen outcomes of R28. -/
inductive Decoded where
  | instr (i : Instr)
  | reject (r : Reject)
  deriving DecidableEq, Repr

/-- The checks of R28 in their order (R58), then the operation. -/
def decode (w : Word) : Decoded :=
  match selectOp w with
  | none => .reject .illegalOp
  | some i => if w &&& rsvMask (opField w) = 0#64 then .instr i else .reject .rsvdNonzero

/-! ## The encoder (R38) -/

/-- The word of FRM_LOAD: the frame bytes in wire order (R21). -/
def frmLoadWord (b0 b1 b2 b3 b4 b5 b6 : Byte) : Word := opFrmLoad ++ 0#4 ++ b0 ++ b1 ++ b2 ++ b3 ++ b4 ++ b5 ++ b6

/-- The word of FRM_PUSH. -/
def frmPushWord (b : Byte) : Word := opFrmPush ++ 0#52 ++ b

/-- The word of an operation without operand. -/
def plainWord (op : BitVec 4) : Word := op ++ 0#60

/-- The word of PRESET_LOOKUP. -/
def presetLookupWord (pid : BitVec 4) : Word := opPresetLookup ++ 0#56 ++ pid

/-- The word of CAL_DERIVE. -/
def calDeriveWord (ty : BitVec 2) (fs : Byte) : Word := opCalDerive ++ 0#50 ++ ty ++ fs

/-- The request word of an operation (R38): OP in the high bits, the operand at the right, reserved bits 0. -/
def encode : Instr → Word
  | .frmLoad b0 b1 b2 b3 b4 b5 b6 => frmLoadWord b0 b1 b2 b3 b4 b5 b6
  | .frmPush b => frmPushWord b
  | .frmClear => plainWord opFrmClear
  | .frmStat => plainWord opFrmStat
  | .stFields => plainWord opStFields
  | .stCode => plainWord opStCode
  | .pRaw => plainWord opPRaw
  | .tRaw => plainWord opTRaw
  | .decodeAll => plainWord opDecodeAll
  | .presetLookup pid => presetLookupWord pid
  | .calDerive ty fs => calDeriveWord ty fs

/-! ## The host's numbering -/

/-- The request word of `nbits` bits `w`, numbered as the opcode table numbers them: one 64-bit word, bit 0 the least
significant, every bit from `nbits` up 0. -/
def tableWord (nbits w : Nat) : Word := BitVec.ofNat 64 (w % 2 ^ nbits)

/-- The operation the decoder reads from such a word; none where it refuses. -/
def decodeTableWord (nbits w : Nat) : Option Instr :=
  match decode (tableWord nbits w) with
  | .instr i => some i
  | .reject _ => none

end Sys2Proof
end

