-- ==== Sys2Proof/Machine/State.lean ====
section
/-! DEFINITION. The state of the block (R12, R14), the host's events and the responses (R8, R29), the fixed sets of
names of the data formats (R31, R32, R57), and the state after reset (R18, R65). -/

namespace Sys2Proof.Machine

/-- A StatusCode (R31); its 3-bit code is `StatusCode.code`. -/
inductive StatusCode where
  | ok | busy | noPower | aluError | memError | error
  deriving DecidableEq, Repr

/-- A sensor type (R32); its 2-bit value is `SensorType.bits`. -/
inductive SensorType where
  | gage | differential | absolute
  deriving DecidableEq, Repr

/-- A valid ROM entry (R16): sensor type and full scale in whole PSI. An invalid entry is `none`: R53 gives it no type
and no scale. -/
structure Preset where
  ty : SensorType
  fs : Byte
  deriving DecidableEq, Repr

/-- The cause of an error response (R57); its 4-bit code is `Cause.code`. -/
inductive Cause where
  | illegalOp | rsvdNonzero | frameOverrun | presetInvalid | typeInvalid
  deriving DecidableEq, Repr

/-- A response (R29): the ERR flag and the DATA word. -/
structure Response where
  err  : Bool
  data : Word
  deriving DecidableEq, Repr

/-- What the host can do to the block (R8): the reset event or one request word. -/
inductive HostEvent where
  | reset
  | request (req : Word)
  deriving DecidableEq, Repr

/-- The state. `frame` and `widx` are all the block holds (R12, R14, R17). `inbox` and `responses` are the model's own
fields for the two ends of the host interface: the events the host is yet to send, oldest first (log 1), and the
responses given so far, oldest first (log 3). -/
structure State where
  frame     : Vector Byte 7
  widx      : BitVec 3
  inbox     : List HostEvent
  responses : List Response
  deriving DecidableEq, Repr

/-- Nothing stops this machine with a fault: every request ends in a response (R73), an error response included
(R56). There is no constructor, so no step can answer a fault. Safe (log 6). -/
inductive Fault where
  deriving DecidableEq, Repr

/-- Why a step has no meaning. -/
inductive Refusal where
  /-- Raised by an arm of `exec` whose instruction is not modelled yet, under the table's mnemonic. Safe. No arm raises
  it: every instruction has its meaning. -/
  | notModelled (mnemonic : String)
  deriving DecidableEq, Repr

/-- The outcome of a step of this machine. -/
abbrev Outcome := Host.Outcome State Fault Refusal

/-- The state after reset (R18, R65), with no event to come and no response given (log 7). -/
def State.reset : State where
  frame := Vector.replicate 7 0#8
  widx := 0#3
  inbox := []
  responses := []

end Sys2Proof.Machine
end

