-- ==== Sys2Proof/Machine/Ops.lean ====
section
/-! DEFINITION. The named operations over the block's state (R12 to R15), answering a request (R29), refusing one (R56,
R57), and the reset event (R65). -/

namespace Sys2Proof.Machine

/-! ## The FRAME register file and WIDX -/

/-- `F[i]` (R12). -/
def State.readFrame (s : State) (i : Fin 7) : Byte := s.frame[i]

/-- `F[i] <- v` (R12): index 7 and above do not exist, and nothing is written there. -/
def State.writeFrame (s : State) (i : Nat) (v : Byte) : State :=
  { s with frame := s.frame.setIfInBounds i v }

/-- Write all seven bytes, in wire order (R13). -/
def State.setFrame (s : State) (f : Vector Byte 7) : State := { s with frame := f }

/-- `WIDX <- v` (R14). -/
def State.setWidx (s : State) (v : BitVec 3) : State := { s with widx := v }

/-- Every FRAME byte 8'h00 and WIDX 0: what FRM_CLEAR and reset do to the block (R42, R65). -/
def State.clearFrame (s : State) : State := (s.setFrame (Vector.replicate 7 0#8)).setWidx 0#3

/-! ## The host interface -/

/-- The host's remaining events. -/
def State.setInbox (s : State) (es : List HostEvent) : State := { s with inbox := es }

/-- Give one response; the earlier ones stand before it (R24, R29). -/
def State.answer (s : State) (r : Response) : State := { s with responses := s.responses ++ [r] }

/-- `respond(d)`: ERR = 0 and DATA = d (R29). -/
def respond (d : Word) (s : State) : Outcome := .next (s.answer ⟨false, d⟩)

/-- The 4-bit cause code (R57). -/
def Cause.code : Cause → BitVec 4
  | .illegalOp => 0x1#4
  | .rsvdNonzero => 0x2#4
  | .frameOverrun => 0x3#4
  | .presetInvalid => 0x4#4
  | .typeInvalid => 0x5#4

/-- The error word (R56): DATA[3:0] the cause code, DATA[7:4] the OP as received, the rest 0. -/
def errorWord (c : Cause) (op : BitVec 4) : Word := (op ++ c.code).setWidth 64

/-- `raise Err(cause)` (R56): the ERR = 1 response, and no state of the block is written. It is the block's only
exception, and nothing returns from it (R60). -/
def raiseErr (c : Cause) (op : BitVec 4) (s : State) : Outcome := .next (s.answer ⟨true, errorWord c op⟩)

/-- The cause that a word the decoder rejects is refused with (R57). -/
def rejectCause : Reject → Cause
  | .illegalOp => .illegalOp
  | .rsvdNonzero => .rsvdNonzero

/-- Answer a request word the decoder rejects (R28, R56). -/
def refuseWord (r : Reject) (w : Word) (s : State) : Outcome := raiseErr (rejectCause r) (opField w) s

/-- The reset event (R65): the block's state to its reset values, no response. -/
def resetEvent (s : State) : Outcome := .next s.clearFrame

/-- No event has come: the block does nothing on its own (R7, log 2). -/
def idle (s : State) : Outcome := .next s

end Sys2Proof.Machine
end

