-- ==== Sys2Proof/Machine/Flags.lean ====
section
/-! DEFINITION. The COMPLETE flag (R15), the sub-fields of the status byte (R30) and the status code (R44). -/

namespace Sys2Proof.Machine

/-- COMPLETE (R15). -/
def State.complete (s : State) : Bool := s.widx == 7#3

/-- COMPLETE as one bit. -/
def State.completeBit (s : State) : BitVec 1 := BitVec.ofBool s.complete

/-! ## The status byte (R30) -/

def statusRsv7 (s : Byte) : BitVec 1 := s.extractLsb' 7 1
def statusPwr (s : Byte) : BitVec 1 := s.extractLsb' 6 1
def statusBsy (s : Byte) : BitVec 1 := s.extractLsb' 5 1
def statusMode (s : Byte) : BitVec 2 := s.extractLsb' 3 2
def statusMem (s : Byte) : BitVec 1 := s.extractLsb' 2 1
def statusRsv1 (s : Byte) : BitVec 1 := s.extractLsb' 1 1
def statusAlu (s : Byte) : BitVec 1 := s.extractLsb' 0 1

/-- The status code of a status byte, first match wins (R44). Bits 7 and 1 are not read (C2). -/
def statusCode (s : Byte) : StatusCode :=
  if statusPwr s = 0#1 then .noPower
  else if statusBsy s = 1#1 then .busy
  else if statusMem s = 1#1 then .memError
  else if statusAlu s = 1#1 then .aluError
  else if statusMode s = 0#2 then .ok
  else .error

/-- The 3-bit code of a StatusCode (R31). -/
def StatusCode.code : StatusCode → BitVec 3
  | .ok => 0#3
  | .busy => 1#3
  | .noPower => 2#3
  | .aluError => 3#3
  | .memError => 4#3
  | .error => 5#3

end Sys2Proof.Machine
end

