-- ==== Sys2Proof/Machine/Operands.lean ====
section
/-! DEFINITION. The values the operations compute: the 24-bit fields (R48), the preset table (R53), the calibration
(R52), and the layouts of the response words (R34 to R37). -/

namespace Sys2Proof.Machine

/-! ## The raw fields (R20, R48) -/

/-- pRaw (R48): the raw pressure, most significant byte first. -/
def pRaw (s : State) : BitVec 24 := s.readFrame 1 ++ s.readFrame 2 ++ s.readFrame 3

/-- tRaw (R48): the raw temperature, most significant byte first. -/
def tRaw (s : State) : BitVec 24 := s.readFrame 4 ++ s.readFrame 5 ++ s.readFrame 6

/-! ## Sensor types and presets -/

/-- The 2-bit value of a sensor type (R32). -/
def SensorType.bits : SensorType → BitVec 2
  | .gage => 0#2
  | .differential => 1#2
  | .absolute => 2#2

/-- The sensor type a TYPE operand names; 2'd3 is none (R32). -/
def sensorTypeOf (t : BitVec 2) : Option SensorType :=
  if t = 0#2 then some .gage
  else if t = 1#2 then some .differential
  else if t = 2#2 then some .absolute
  else none

/-- ROM (R16, R53): sixteen entries, the ids 7 and 15 invalid. -/
def romTable : Vector (Option Preset) 16 :=
  #v[some ⟨.gage, Config.scale0⟩, some ⟨.gage, Config.scale1⟩, some ⟨.gage, Config.scale2⟩,
     some ⟨.gage, Config.scale3⟩, some ⟨.gage, Config.scale4⟩, some ⟨.gage, Config.scale5⟩,
     some ⟨.gage, Config.scale6⟩, none,
     some ⟨.differential, Config.scale0⟩, some ⟨.differential, Config.scale1⟩, some ⟨.differential, Config.scale2⟩,
     some ⟨.differential, Config.scale3⟩, some ⟨.differential, Config.scale4⟩, some ⟨.differential, Config.scale5⟩,
     some ⟨.differential, Config.scale6⟩, none]

/-- `ROM[pid]` (R54). -/
def rom (pid : BitVec 4) : Option Preset := romTable[pid.toNat]'pid.isLt

/-- The zero reference of a sensor type (R52). -/
def zeroRef : SensorType → BitVec 16
  | .differential => Config.zeroRefD
  | .gage => Config.zeroRefGA
  | .absolute => Config.zeroRefGA

/-- The pressure range of a sensor type and full scale (R52): twice the full scale for Differential. -/
def pressureRange (t : SensorType) (fs : Byte) : BitVec 16 :=
  match t with
  | .differential => fs.setWidth 16 <<< 1
  | .gage => fs.setWidth 16
  | .absolute => fs.setWidth 16

/-- The calibration (R52): the low 48 bits of the calibration word. -/
def calib (t : SensorType) (fs : Byte) : BitVec 48 :=
  pressureRange t fs ++ zeroRef t ++ 0#6 ++ t.bits ++ fs

/-! ## Response words -/

/-- The FRM_STAT word (R34). -/
def frmStatWord (s : State) : Word := (s.completeBit ++ s.widx).setWidth 64

/-- The ST_FIELDS word (R35, R45). -/
def stFieldsWord (b : Byte) : Word :=
  (b ++ statusRsv7 b ++ statusRsv1 b ++ statusAlu b ++ statusMem b ++ statusMode b ++ statusBsy b
    ++ statusPwr b).setWidth 64

/-- The ST_CODE word (R46). -/
def stCodeWord (b : Byte) : Word := (statusCode b).code.setWidth 64

/-- The DECODE_ALL word (R37, R51). -/
def decodeAllWord (s : State) : Word :=
  0#5 ++ (statusCode (s.readFrame 0)).code ++ s.readFrame 0 ++ pRaw s ++ tRaw s

/-- The calibration word (R36). -/
def calibWord (t : SensorType) (fs : Byte) : Word := (calib t fs).setWidth 64

end Sys2Proof.Machine
end

