-- ==== Sys2Proof/Machine/Frame.lean ====
section
/-! DEFINITION. The frame loading operations (R40 to R43). -/

namespace Sys2Proof.Machine

/-- Answer with the FRM_STAT word of the state the operation leaves (R34, D21). -/
def respondStat (s : State) : Outcome := respond (frmStatWord s) s

/-- FRM_LOAD (R40): a whole frame in one request. -/
def execFrmLoad (b0 b1 b2 b3 b4 b5 b6 : Byte) (s : State) : Outcome :=
  respondStat ((s.setFrame #v[b0, b1, b2, b3, b4, b5, b6]).setWidx 7#3)

/-- FRM_PUSH (R41): one byte at the write index, refused with FRAME_OVERRUN where the frame is complete. -/
def execFrmPush (b : Byte) (s : State) : Outcome :=
  if s.widx = 7#3 then raiseErr .frameOverrun opFrmPush s
  else respondStat ((s.writeFrame s.widx.toNat b).setWidx (s.widx + 1#3))

/-- FRM_CLEAR (R42): empty the frame. -/
def execFrmClear (s : State) : Outcome := respondStat s.clearFrame

/-- FRM_STAT (R43): report WIDX and COMPLETE. -/
def execFrmStat (s : State) : Outcome := respondStat s

end Sys2Proof.Machine
end

