-- ==== Sys2Proof/Machine/Preset.lean ====
section
/-! DEFINITION. The sensor-variant configuration table (R52 to R55). -/

namespace Sys2Proof.Machine

/-- PRESET_LOOKUP (R54): the calibration of a preset, PRESET_INVALID where the id has no entry. -/
def execPresetLookup (pid : BitVec 4) (s : State) : Outcome :=
  match rom pid with
  | none => raiseErr .presetInvalid opPresetLookup s
  | some e => respond (calibWord e.ty e.fs) s

/-- CAL_DERIVE (R55): the calibration of any type and full scale, TYPE_INVALID where TYPE is 2'd3. -/
def execCalDerive (ty : BitVec 2) (fs : Byte) (s : State) : Outcome :=
  match sensorTypeOf ty with
  | none => raiseErr .typeInvalid opCalDerive s
  | some t => respond (calibWord t fs) s

end Sys2Proof.Machine
end

