-- ==== Sys2Proof/Machine/Status.lean ====
section
/-! DEFINITION. The status-bit extractor (R44 to R47). -/

namespace Sys2Proof.Machine

/-- ST_FIELDS (R45): the sub-fields of the status byte. -/
def execStFields (s : State) : Outcome := respond (stFieldsWord (s.readFrame 0)) s

/-- ST_CODE (R46): the status code. A code other than Ok is a result, not an error (R47). -/
def execStCode (s : State) : Outcome := respond (stCodeWord (s.readFrame 0)) s

end Sys2Proof.Machine
end

