-- ==== Sys2Proof/Machine/Unpack.lean ====
section
/-! DEFINITION. The 24-bit big-endian unpacker (R48 to R51). -/

namespace Sys2Proof.Machine

/-- P_RAW (R49): the raw pressure. -/
def execPRaw (s : State) : Outcome := respond ((pRaw s).setWidth 64) s

/-- T_RAW (R50): the raw temperature. -/
def execTRaw (s : State) : Outcome := respond ((tRaw s).setWidth 64) s

/-- DECODE_ALL (R51): the status code and the whole frame in one word. -/
def execDecodeAll (s : State) : Outcome := respond (decodeAllWord s) s

end Sys2Proof.Machine
end

