-- ==== Sys2Proof/Machine/Dispatch.lean ====
section
/-! DEFINITION. The meaning of each operation: one arm per constructor of Instr. -/

namespace Sys2Proof.Machine

def exec (i : Instr) (s : State) : Host.Outcome State Fault Refusal :=
  match i with
  | .frmLoad b0 b1 b2 b3 b4 b5 b6 => Sys2Proof.Machine.execFrmLoad b0 b1 b2 b3 b4 b5 b6 s
  | .frmPush b => Sys2Proof.Machine.execFrmPush b s
  | .frmClear => Sys2Proof.Machine.execFrmClear s
  | .frmStat => Sys2Proof.Machine.execFrmStat s
  | .stFields => Sys2Proof.Machine.execStFields s
  | .stCode => Sys2Proof.Machine.execStCode s
  | .pRaw => Sys2Proof.Machine.execPRaw s
  | .tRaw => Sys2Proof.Machine.execTRaw s
  | .decodeAll => Sys2Proof.Machine.execDecodeAll s
  | .presetLookup pid => Sys2Proof.Machine.execPresetLookup pid s
  | .calDerive ty fs => Sys2Proof.Machine.execCalDerive ty fs s

end Sys2Proof.Machine
end

