-- ==== Sys2Proof/Machine/Step.lean ====
section
/-! DEFINITION. One step (R8, R28): the host's oldest event is taken and has its effect. -/

namespace Sys2Proof.Machine

/-- One step: no event, nothing happens (R7); a reset event (R65); a request word, decoded and run, or refused by the
decoder's checks (R28). -/
def step (s : State) : Host.Outcome State Fault Refusal :=
  match s.inbox with
  | [] => idle s
  | .reset :: rest => resetEvent (s.setInbox rest)
  | .request w :: rest =>
    match decode w with
    | .instr i => exec i (s.setInbox rest)
    | .reject r => refuseWord r w (s.setInbox rest)

/-- The word as the host's next request, before the events already to come (log 13). -/
def State.withFetchWord (s : State) (nbits w : Nat) : State :=
  s.setInbox (.request (tableWord nbits w) :: s.inbox)

end Sys2Proof.Machine
end

