-- ==== Sys2Proof/Machine/Asm.lean ====
section
/-! DEFINITION. The assembler syntax (R38): a line as data, the request words it stands for, and the reading of a line
of text. The step never uses it; it writes the host's request sequences down. What R38 does not say of the text is
log 15. -/

namespace Sys2Proof.Machine

/-- The model names of the 14 presets (R53). -/
inductive Model where
  | L01G | L02G | L05G | L10G | L20G | L30G | L60G
  | L01D | L02D | L05D | L10D | L20D | L30D | L60D
  deriving DecidableEq, Repr

/-- The preset id of a model (R33, R53). -/
def Model.pid : Model → BitVec 4
  | .L01G => 0x0#4 | .L02G => 0x1#4 | .L05G => 0x2#4 | .L10G => 0x3#4
  | .L20G => 0x4#4 | .L30G => 0x5#4 | .L60G => 0x6#4
  | .L01D => 0x8#4 | .L02D => 0x9#4 | .L05D => 0xA#4 | .L10D => 0xB#4
  | .L20D => 0xC#4 | .L30D => 0xD#4 | .L60D => 0xE#4

/-- One line of the assembler (R38). -/
inductive AsmLine where
  /-- One of the eleven mnemonics with numbers as operands. -/
  | instr (i : Instr)
  /-- `preset.lookup` with a model name. -/
  | presetNamed (m : Model)
  /-- `cal.derive` with a type name. -/
  | calNamed (t : SensorType) (fs : Byte)
  /-- The pseudo-instruction `frm.stream`. -/
  | frmStream (b0 b1 b2 b3 b4 b5 b6 : Byte)
  /-- The pseudo-instruction `decode.status`. -/
  | decodeStatus
  /-- `.word w`: a raw request word. -/
  | word (w : Word)
  deriving DecidableEq, Repr

/-- The request words of a line, in the order sent (R38). -/
def AsmLine.words : AsmLine → List Word
  | .instr i => [encode i]
  | .presetNamed m => [encode (.presetLookup m.pid)]
  | .calNamed t fs => [encode (.calDerive t.bits fs)]
  | .frmStream b0 b1 b2 b3 b4 b5 b6 =>
    [encode .frmClear, encode (.frmPush b0), encode (.frmPush b1), encode (.frmPush b2), encode (.frmPush b3),
     encode (.frmPush b4), encode (.frmPush b5), encode (.frmPush b6)]
  | .decodeStatus => [encode .stCode]
  | .word w => [w]

/-- The events a host sends for a sequence of lines. -/
def asmEvents (ls : List AsmLine) : List HostEvent := (ls.flatMap AsmLine.words).map .request

/-! ## Reading a line of text -/

/-- White space between the parts of a line (log 15). -/
def isBlank (c : Char) : Bool := c == ' ' || c == '\t'

/-- A part of a line without the white space around it. -/
def trimBlank (cs : List Char) : List Char := ((cs.dropWhile isBlank).reverse.dropWhile isBlank).reverse

/-- The parts of a list between commas, each trimmed. -/
def splitCommas : List Char → List (List Char)
  | [] => [[]]
  | c :: cs =>
    if c = ',' then [] :: splitCommas cs
    else match splitCommas cs with
      | [] => [[c]]
      | p :: ps => (c :: p) :: ps

/-- The value of a digit, 16 where it is none. -/
def digitValue (c : Char) : Nat :=
  if '0' ≤ c ∧ c ≤ '9' then c.toNat - '0'.toNat
  else if 'a' ≤ c ∧ c ≤ 'f' then c.toNat - 'a'.toNat + 10
  else if 'A' ≤ c ∧ c ≤ 'F' then c.toNat - 'A'.toNat + 10
  else 16

/-- The number that digits in a base write, most significant first; none where there is no digit or a wrong one. -/
def readDigits (base : Nat) : List Char → Option Nat
  | [] => none
  | cs => cs.foldl (fun acc c => acc.bind fun n => if digitValue c < base then some (n * base + digitValue c) else none)
      (some 0)

/-- A number in C style (R38): `0x` and hexadecimal digits, or decimal digits. DESIGN CHOICE (log 15): R38 leaves open
a number with a leading zero and no `x` (`010`), which C would read as octal; here its digits are decimal. -/
def readNumber : List Char → Option Nat
  | '0' :: 'x' :: ds => readDigits 16 ds
  | ds => readDigits 10 ds

/-- A number that fits a field of `n` bits; none where it does not (log 15). -/
def readField (n : Nat) (cs : List Char) : Option (BitVec n) :=
  (readNumber cs).bind fun v => if v < 2 ^ n then some (BitVec.ofNat n v) else none

/-- A model name (R53). -/
def readModel (cs : List Char) : Option Model :=
  [("L01G".toList, Model.L01G), ("L02G".toList, .L02G), ("L05G".toList, .L05G), ("L10G".toList, .L10G),
   ("L20G".toList, .L20G), ("L30G".toList, .L30G), ("L60G".toList, .L60G), ("L01D".toList, .L01D),
   ("L02D".toList, .L02D), ("L05D".toList, .L05D), ("L10D".toList, .L10D), ("L20D".toList, .L20D),
   ("L30D".toList, .L30D), ("L60D".toList, .L60D)].lookup cs

/-- A type name of `cal.derive` (R38). -/
def readTypeName (cs : List Char) : Option SensorType :=
  [("gage".toList, SensorType.gage), ("differential".toList, .differential), ("absolute".toList, .absolute)].lookup cs

/-- Seven bytes as the operands of `frm.load` and `frm.stream`. -/
def readSeven (f : Byte → Byte → Byte → Byte → Byte → Byte → Byte → AsmLine) : List (List Char) → Option AsmLine
  | [a, b, c, d, e, g, h] => do
    pure (f (← readField 8 a) (← readField 8 b) (← readField 8 c) (← readField 8 d) (← readField 8 e)
      (← readField 8 g) (← readField 8 h))
  | _ => none

/-- A line that takes no operand. -/
def readNone (l : AsmLine) : List (List Char) → Option AsmLine
  | [] => some l
  | _ => none

/-- A line that takes one operand. -/
def readOne (f : List Char → Option AsmLine) : List (List Char) → Option AsmLine
  | [a] => f a
  | _ => none

/-- The operand of `preset.lookup`: a model name or a number. -/
def readPreset (a : List Char) : Option AsmLine :=
  match readModel a with
  | some m => some (.presetNamed m)
  | none => (readField 4 a).map fun pid => .instr (.presetLookup pid)

/-- The operands of `cal.derive`: a type name or number, then the full scale. -/
def readCal : List (List Char) → Option AsmLine
  | [a, b] =>
    match readTypeName a with
    | some t => (readField 8 b).map fun fs => .calNamed t fs
    | none => do pure (.instr (.calDerive (← readField 2 a) (← readField 8 b)))
  | _ => none

/-- A line by its mnemonic (R38). -/
def readMnemonic (m : List Char) (ops : List (List Char)) : Option AsmLine :=
  if m = "frm.load".toList then readSeven (fun a b c d e g h => .instr (.frmLoad a b c d e g h)) ops
  else if m = "frm.push".toList then readOne (fun a => (readField 8 a).map fun b => .instr (.frmPush b)) ops
  else if m = "frm.clear".toList then readNone (.instr .frmClear) ops
  else if m = "frm.stat".toList then readNone (.instr .frmStat) ops
  else if m = "st.fields".toList then readNone (.instr .stFields) ops
  else if m = "st.code".toList then readNone (.instr .stCode) ops
  else if m = "p.raw".toList then readNone (.instr .pRaw) ops
  else if m = "t.raw".toList then readNone (.instr .tRaw) ops
  else if m = "decode.all".toList then readNone (.instr .decodeAll) ops
  else if m = "preset.lookup".toList then readOne readPreset ops
  else if m = "cal.derive".toList then readCal ops
  else if m = ".word".toList then readOne (fun a => (readField 64 a).map .word) ops
  else if m = "frm.stream".toList then readSeven .frmStream ops
  else if m = "decode.status".toList then readNone .decodeStatus ops
  else none

/-- The request words of one line of text, a comment from `;` on left out; an empty line stands for no request, and a
line the syntax does not know for none. -/
def assembleText (line : String) : Option (List Word) :=
  let cs := trimBlank (line.toList.takeWhile (· != ';'))
  let m := cs.takeWhile (fun c => !isBlank c)
  let rest := trimBlank (cs.dropWhile fun c => !isBlank c)
  if cs = [] then some []
  else (readMnemonic m (if rest = [] then [] else (splitCommas rest).map trimBlank)).map AsmLine.words

end Sys2Proof.Machine
end

