-- ==== Sys2Proof/Safety.lean ====
section
/-! DEFINITION. The terms the statements use: the invariants of a safe run (R57, R67), when a request is refused (R57,
R58), the layouts of response words by their fields (R34, R36), and runs of steps (R73). They are written from the
spec's words on bits, and not from the operations. -/

namespace Sys2Proof.Machine

/-- R67: every FRAME byte at or above WIDX holds 8'h00. -/
abbrev ZeroTail (s : State) : Prop := ∀ i : Fin 7, s.widx.toNat ≤ i.val → s.frame[i] = 0#8

/-- A response's form: where ERR is 1 the word holds a cause code of R57 (1 to 5) in bits 3:0 and nothing above bit 7
(R56). -/
abbrev Response.Legal (r : Response) : Prop :=
  r.err = true → 1 ≤ (r.data.extractLsb' 0 4).toNat ∧ (r.data.extractLsb' 0 4).toNat ≤ 5 ∧
    r.data.extractLsb' 8 56 = 0#56

/-- Every response given so far has its form. -/
abbrev ResponsesLegal (s : State) : Prop := ∀ r ∈ s.responses, r.Legal

/-- R27's mask column, by the OP bits of the word. -/
def reservedBits (w : Word) : Word :=
  match (w.extractLsb' 60 4).toNat with
  | 1 => 0x0F00000000000000#64
  | 2 => 0x0FFFFFFFFFFFFF00#64
  | 10 => 0x0FFFFFFFFFFFFFF0#64
  | 11 => 0x0FFFFFFFFFFFFC00#64
  | _ => 0x0FFFFFFFFFFFFFFF#64

/-- The cause code a request word is refused with in a state with this write index (R57), the first that applies in
the order of R58; none where no cause applies. -/
def firstCause (widx : BitVec 3) (w : Word) : Option (BitVec 4) :=
  if w.extractLsb' 60 4 ∈ [0x0#4, 0xC#4, 0xD#4, 0xE#4, 0xF#4] then some 0x1#4
  else if w &&& reservedBits w ≠ 0#64 then some 0x2#4
  else if w.extractLsb' 60 4 = 0x2#4 ∧ widx = 7#3 then some 0x3#4
  else if w.extractLsb' 60 4 = 0xA#4 ∧ w.extractLsb' 0 4 ∈ [0x7#4, 0xF#4] then some 0x4#4
  else if w.extractLsb' 60 4 = 0xB#4 ∧ w.extractLsb' 8 2 = 3#2 then some 0x5#4
  else none

/-- The word is the only legal request with its OP: it decodes to the operation, and any other word with that OP is
rejected for its reserved bits (the Encoding and Exceptions lines of the operations without operand). -/
def SoleLegalWord (w₀ : Word) (i : Instr) : Prop :=
  decode w₀ = .instr i ∧
    ∀ w : Word, w.extractLsb' 60 4 = w₀.extractLsb' 60 4 → w.extractLsb' 0 60 ≠ 0#60 →
      decode w = .reject .rsvdNonzero

/-- The fields of a FRM_STAT word that reports this write index (R34). -/
def IsStatWord (d : Word) (widx : BitVec 3) : Prop :=
  d.extractLsb' 0 3 = widx ∧ d.extractLsb' 3 1 = (if widx = 7#3 then 1#1 else 0#1) ∧ d.extractLsb' 4 60 = 0#60

/-- The fields of a calibration word (R36): full scale, type, zero reference and range. -/
def IsCalibWord (d : Word) (fs : Byte) (ty : BitVec 2) (zref range : Nat) : Prop :=
  d.extractLsb' 0 8 = fs ∧ d.extractLsb' 8 2 = ty ∧ d.extractLsb' 10 6 = 0#6 ∧
    (d.extractLsb' 16 16).toNat = zref ∧ (d.extractLsb' 32 16).toNat = range ∧ d.extractLsb' 48 16 = 0#16

/-- How many of the events are requests. -/
def requestCount : List HostEvent → Nat
  | [] => 0
  | .reset :: es => requestCount es
  | .request _ :: es => requestCount es + 1

/-- `n` steps, stopping at the first that answers no next state (R73). -/
def runSteps : Nat → State → Outcome
  | 0, s => .next s
  | n + 1, s =>
    match step s with
    | .next t => runSteps n t
    | .fault f => .fault f
    | .refused r => .refused r

end Sys2Proof.Machine
end

