-- ==== Sys2Proof/Certificates/Slice0/Obligations.lean ====
section
/-! DEFINITION. The statements for the provers, each with the rule of the spec it formalises. Request words and
response words are described by their bits. -/

open Sys2Proof Sys2Proof.Machine

/-! ## Encoding -/

/-- Decoding an encoded operation gives it back, every operand at every value (R25, R27, R28, R38). -/
def Obligations.DecodeOfEncodeIsTheInstruction : Prop :=
  ∀ i : Instr, decode (encode i) = .instr i

/-- A word that decodes to an operation is that operation's encoding: no bit of an accepted word is ignored (R27,
R39). -/
def Obligations.EncodeOfDecodeIsTheWord : Prop :=
  ∀ (w : Word) (i : Instr), decode w = .instr i → encode i = w

/-- The decoder, written from R28's procedure, accepts exactly the words that fit a row of the opcode table, and no
word fits two rows (R26, R27). -/
def Obligations.DecoderAcceptsExactlyTheOpcodeTable : Prop :=
  (∀ w : Word, (∃ i, decode w = .instr i) ↔ WellFormed w = true) ∧
  ∀ (w : Word) (r₁ r₂ : OpcodeRow), r₁ ∈ opcodeTable → r₂ ∈ opcodeTable → r₁.fits w = true → r₂.fits w = true →
    r₁ = r₂

/-- Words written out from R25 and R38 decode to what they stand for, one of each family and one refused word of each
kind. -/
def Obligations.WrittenOutWordsDecodeAsTheSpecSays : Prop :=
  decode 0x1040123456000FFF#64 = .instr (.frmLoad 0x40#8 0x12#8 0x34#8 0x56#8 0x00#8 0x0F#8 0xFF#8) ∧
  decode 0x20000000000000EE#64 = .instr (.frmPush 0xEE#8) ∧
  decode 0x6000000000000000#64 = .instr .stCode ∧
  decode 0x9000000000000000#64 = .instr .decodeAll ∧
  decode 0xA00000000000000A#64 = .instr (.presetLookup 0xA#4) ∧
  decode 0xB00000000000020F#64 = .instr (.calDerive 2#2 15#8) ∧
  decode 0xC000000000000000#64 = .reject .illegalOp ∧
  decode 0x8000000000000001#64 = .reject .rsvdNonzero

/-! ## The step -/

/-- Where the host's oldest event is a request that decodes to an operation, the step takes that event away and runs
the operation (R8, R24, R28). -/
def Obligations.StepRunsTheDecodedInstruction : Prop :=
  ∀ (s : State) (w : Word) (rest : List HostEvent) (i : Instr), s.inbox = .request w :: rest → decode w = .instr i →
    step s = exec i { s with inbox := rest }

/-- A request is refused exactly where a cause of R57 applies, with the first in the order of R58: one response with
ERR 1, the cause code in DATA[3:0], the OP as received in DATA[7:4] and 0 above, FRAME and WIDX as they were (R56).
Where no cause applies it is answered with ERR 0. -/
def Obligations.RequestIsRefusedExactlyForItsFirstCause : Prop :=
  ∀ (s : State) (w : Word) (rest : List HostEvent), s.inbox = .request w :: rest →
    (∀ c, firstCause s.widx w = some c → ∃ d : Word,
      step s = .next { s with inbox := rest, responses := s.responses ++ [⟨true, d⟩] } ∧
      d.extractLsb' 0 4 = c ∧ d.extractLsb' 4 4 = w.extractLsb' 60 4 ∧ d.extractLsb' 8 56 = 0#56) ∧
    (firstCause s.widx w = none → ∃ (t : State) (d : Word),
      step s = .next t ∧ t.inbox = rest ∧ t.responses = s.responses ++ [⟨false, d⟩])

/-- Where the host has sent nothing the block does nothing: it never acts on its own (R7). That such a step is a next
state at all is the model's choice, log 2. -/
def Obligations.BlockNeverActsOnItsOwn : Prop :=
  ∀ s : State, s.inbox = [] → step s = .next s

/-! ## Frame loading (R40 to R43, R70) -/

/-- FRM_LOAD (R40): all seven bytes from the request, WIDX 7, the response 64'hF, from any state; a FRM_PUSH after it
overruns; the encoding, and RSVD_NONZERO where REQ[59:56] is not 0. -/
def Obligations.FrmLoadWritesTheWholeFrame : Prop :=
  (∀ (b0 b1 b2 b3 b4 b5 b6 : Byte) (s : State), ∃ t : State,
    exec (.frmLoad b0 b1 b2 b3 b4 b5 b6) s = .next t ∧
    t = { s with frame := #v[b0, b1, b2, b3, b4, b5, b6], widx := 7#3, responses := s.responses ++ [⟨false, 0xF#64⟩] } ∧
    ∀ b, exec (.frmPush b) t = .next { t with responses := t.responses ++ [⟨true, 0x23#64⟩] }) ∧
  (∀ w : Word, w.extractLsb' 60 4 = 0x1#4 → w.extractLsb' 56 4 = 0#4 →
    decode w = .instr (.frmLoad (w.extractLsb' 48 8) (w.extractLsb' 40 8) (w.extractLsb' 32 8) (w.extractLsb' 24 8)
      (w.extractLsb' 16 8) (w.extractLsb' 8 8) (w.extractLsb' 0 8))) ∧
  ∀ w : Word, w.extractLsb' 60 4 = 0x1#4 → w.extractLsb' 56 4 ≠ 0#4 → decode w = .reject .rsvdNonzero

/-- FRM_PUSH (R41): with WIDX below 7, the byte goes to F[WIDX], the other bytes stay, WIDX goes up by one without a
wrap, the response is the FRM_STAT word after the write, and bytes not yet pushed stay 8'h00 (R67); with WIDX 7,
FRAME_OVERRUN and nothing written; the encoding, and RSVD_NONZERO whatever WIDX is. -/
def Obligations.FrmPushAppendsOneByteOrOverruns : Prop :=
  (∀ (b : Byte) (s : State), s.widx ≠ 7#3 → ∃ (t : State) (d : Word), exec (.frmPush b) s = .next t ∧
    (∀ i : Fin 7, t.frame[i] = if i.val = s.widx.toNat then b else s.frame[i]) ∧
    t.widx.toNat = s.widx.toNat + 1 ∧ t.inbox = s.inbox ∧
    t.responses = s.responses ++ [⟨false, d⟩] ∧ IsStatWord d t.widx ∧ (ZeroTail s → ZeroTail t)) ∧
  (∀ (b : Byte) (s : State), s.widx = 7#3 →
    exec (.frmPush b) s = .next { s with responses := s.responses ++ [⟨true, 0x23#64⟩] }) ∧
  (∀ w : Word, w.extractLsb' 60 4 = 0x2#4 → w.extractLsb' 8 52 = 0#52 →
    decode w = .instr (.frmPush (w.extractLsb' 0 8))) ∧
  ∀ w : Word, w.extractLsb' 60 4 = 0x2#4 → w.extractLsb' 8 52 ≠ 0#52 → decode w = .reject .rsvdNonzero

/-- FRM_CLEAR (R42): every FRAME byte 8'h00 and WIDX 0, which is what reset leaves (R18), the response 64'h0; ST_CODE
then answers NoPower; its one legal word. -/
def Obligations.FrmClearEmptiesTheFrame : Prop :=
  (∀ s : State, ∃ t : State, exec .frmClear s = .next t ∧
    t = { s with frame := #v[0, 0, 0, 0, 0, 0, 0], widx := 0#3, responses := s.responses ++ [⟨false, 0#64⟩] } ∧
    t.frame = State.reset.frame ∧ t.widx = State.reset.widx ∧
    exec .stCode t = .next { t with responses := t.responses ++ [⟨false, 2#64⟩] }) ∧
  SoleLegalWord 0x3000000000000000#64 .frmClear

/-- FRM_STAT (R43): the response is the FRM_STAT word of the present WIDX, no state is written; DATA[3:0] is never 7 to
14; its one legal word. -/
def Obligations.FrmStatReportsTheWriteIndex : Prop :=
  (∀ s : State, ∃ d : Word,
    exec .frmStat s = .next { s with responses := s.responses ++ [⟨false, d⟩] } ∧ IsStatWord d s.widx ∧
    ((d.extractLsb' 0 4).toNat ≤ 6 ∨ (d.extractLsb' 0 4).toNat = 15)) ∧
  SoleLegalWord 0x4000000000000000#64 .frmStat

/-- Restarting a serial load (R70): after FRM_LOAD and after a seventh FRM_PUSH, WIDX is 7; with WIDX 7 every FRM_PUSH
is refused with FRAME_OVERRUN and the old frame stays; after FRM_CLEAR a FRM_PUSH writes F[0] again; a new FRM_LOAD
needs no clear. At WIDX 7 every operation but FRM_CLEAR keeps WIDX 7, and a step that leaves 7 took the FRM_CLEAR
request or a reset event (R65) and leaves WIDX 0. -/
def Obligations.SerialLoadRestartsOnlyAfterClearOrReset : Prop :=
  (∀ (b0 b1 b2 b3 b4 b5 b6 : Byte) (s : State), ∃ t : State,
    exec (.frmLoad b0 b1 b2 b3 b4 b5 b6) s = .next t ∧ t.widx = 7#3 ∧ t.frame = #v[b0, b1, b2, b3, b4, b5, b6]) ∧
  (∀ (b : Byte) (s : State), s.widx = 6#3 → ∃ t : State, exec (.frmPush b) s = .next t ∧ t.widx = 7#3) ∧
  (∀ (b : Byte) (s : State), s.widx = 7#3 →
    exec (.frmPush b) s = .next { s with responses := s.responses ++ [⟨true, 0x23#64⟩] }) ∧
  (∀ (b : Byte) (s : State), ∃ t u : State, exec .frmClear s = .next t ∧ exec (.frmPush b) t = .next u ∧
    u.frame = #v[b, 0, 0, 0, 0, 0, 0] ∧ u.widx = 1#3) ∧
  (∀ (i : Instr) (s : State), s.widx = 7#3 → i ≠ .frmClear → ∃ t : State, exec i s = .next t ∧ t.widx = 7#3) ∧
  ∀ s t : State, s.widx = 7#3 → step s = .next t → t.widx ≠ 7#3 → t.widx = 0#3 ∧
    ((∃ rest, s.inbox = .reset :: rest) ∨ ∃ rest, s.inbox = .request 0x3000000000000000#64 :: rest)

/-- The pseudo-instruction frm.stream (R38) is eight requests: from any state they leave the FRAME and WIDX that one
FRM_LOAD of the same bytes leaves, and the responses count the bytes (R40, R41, R42). -/
def Obligations.StreamLoadsTheFrameThatOneLoadDoes : Prop :=
  ∀ (b0 b1 b2 b3 b4 b5 b6 : Byte) (s : State) (rest : List HostEvent),
    s.inbox = asmEvents [.frmStream b0 b1 b2 b3 b4 b5 b6] ++ rest →
    ∃ t u : State, runSteps 8 s = .next t ∧ exec (.frmLoad b0 b1 b2 b3 b4 b5 b6) s = .next u ∧
      t.frame = u.frame ∧ t.widx = u.widx ∧ t.inbox = rest ∧
      t.responses = s.responses ++ [⟨false, 0#64⟩, ⟨false, 1#64⟩, ⟨false, 2#64⟩, ⟨false, 3#64⟩, ⟨false, 4#64⟩,
        ⟨false, 5#64⟩, ⟨false, 6#64⟩, ⟨false, 0xF#64⟩]

/-! ## Status (R44 to R47) -/

/-- statusCode (R44): NoPower, Busy, MemError, AluError, Ok and Error by the first match on bits 6, 5, 2, 0 and 4:3,
with the codes of R31; bits 7 and 1 never matter; the counts over the 256 bytes, and the four bytes that give Ok. -/
def Obligations.StatusCodeFollowsThePrecedence : Prop :=
  (∀ s : Byte, (statusCode s).code =
    if s.getLsbD 6 = false then 2#3
    else if s.getLsbD 5 = true then 1#3
    else if s.getLsbD 2 = true then 4#3
    else if s.getLsbD 0 = true then 3#3
    else if s.extractLsb' 3 2 = 0#2 then 0#3
    else 5#3) ∧
  (∀ s : Byte, statusCode (s ^^^ 0x80#8) = statusCode s ∧ statusCode (s ^^^ 0x02#8) = statusCode s) ∧
  ([2, 1, 4, 3, 5, 0].map fun c : BitVec 3 =>
      ((List.range 256).filter fun n => (statusCode (BitVec.ofNat 8 n)).code == c).length) = [128, 64, 32, 16, 12, 4] ∧
  ∀ s : Byte, statusCode s = .ok ↔ s ∈ [0x40#8, 0x42#8, 0xC0#8, 0xC2#8]

/-- ST_FIELDS (R45, the layout of R35): each sub-field of F[0] at its place, the whole byte in DATA[15:8], 0 above; no
state written, WIDX not looked at; its one legal word. -/
def Obligations.StFieldsReturnsTheSubFields : Prop :=
  (∀ s : State, ∃ d : Word, exec .stFields s = .next { s with responses := s.responses ++ [⟨false, d⟩] } ∧
    d.getLsbD 0 = s.frame[0].getLsbD 6 ∧ d.getLsbD 1 = s.frame[0].getLsbD 5 ∧
    d.extractLsb' 2 2 = s.frame[0].extractLsb' 3 2 ∧ d.getLsbD 4 = s.frame[0].getLsbD 2 ∧
    d.getLsbD 5 = s.frame[0].getLsbD 0 ∧ d.getLsbD 6 = s.frame[0].getLsbD 1 ∧
    d.getLsbD 7 = s.frame[0].getLsbD 7 ∧ d.extractLsb' 8 8 = s.frame[0] ∧ d.extractLsb' 16 48 = 0#48) ∧
  SoleLegalWord 0x5000000000000000#64 .stFields

/-- ST_CODE (R46): the response is the zero-extended code of statusCode(F[0]), one of 0 to 5; no state written; NoPower
after FRM_CLEAR and in the reset state; its one legal word. -/
def Obligations.StCodeReturnsTheStatusCode : Prop :=
  (∀ s : State, ∃ d : Word, exec .stCode s = .next { s with responses := s.responses ++ [⟨false, d⟩] } ∧
    d.extractLsb' 0 3 = (statusCode s.frame[0]).code ∧ d.toNat ≤ 5) ∧
  exec .stCode State.reset = .next { State.reset with responses := [⟨false, 2#64⟩] } ∧
  (∀ s : State, ∃ t : State, exec .frmClear s = .next t ∧
    exec .stCode t = .next { t with responses := t.responses ++ [⟨false, 2#64⟩] }) ∧
  SoleLegalWord 0x6000000000000000#64 .stCode

/-- A StatusCode other than Ok never makes the block raise an error (R47): in every state ST_CODE and DECODE_ALL answer
with ERR 0, whatever code they return; and whatever the request word is, its response's ERR is the same with any other
byte in F[0], the one byte the code is computed from. -/
def Obligations.StatusCodeOtherThanOkIsNoError : Prop :=
  (∀ s : State, ∃ d e : Word,
    exec .stCode s = .next { s with responses := s.responses ++ [⟨false, d⟩] } ∧
    exec .decodeAll s = .next { s with responses := s.responses ++ [⟨false, e⟩] } ∧
    d.extractLsb' 0 3 = (statusCode s.frame[0]).code ∧ e.extractLsb' 56 3 = (statusCode s.frame[0]).code) ∧
  ∀ (s : State) (w : Word) (rest : List HostEvent) (b : Byte), s.inbox = .request w :: rest →
    ∃ (err : Bool) (d e : Word) (t u : State),
      step s = .next t ∧ t.responses = s.responses ++ [⟨err, d⟩] ∧
      step { s with frame := s.frame.set 0 b } = .next u ∧ u.responses = s.responses ++ [⟨err, e⟩]

/-! ## Unpack (R48 to R51) -/

/-- The raw fields (R48): the or of the shifted bytes, the concatenation, and the sum are one value, below 2^24. -/
def Obligations.RawFieldsAreBigEndian : Prop :=
  ∀ s : State,
    pRaw s = s.frame[1].setWidth 24 <<< 16 ||| s.frame[2].setWidth 24 <<< 8 ||| s.frame[3].setWidth 24 ∧
    tRaw s = s.frame[4].setWidth 24 <<< 16 ||| s.frame[5].setWidth 24 <<< 8 ||| s.frame[6].setWidth 24 ∧
    pRaw s = s.frame[1] ++ s.frame[2] ++ s.frame[3] ∧ tRaw s = s.frame[4] ++ s.frame[5] ++ s.frame[6] ∧
    (pRaw s).toNat = s.frame[1].toNat * 65536 + s.frame[2].toNat * 256 + s.frame[3].toNat ∧
    (tRaw s).toNat = s.frame[4].toNat * 65536 + s.frame[5].toNat * 256 + s.frame[6].toNat

/-- P_RAW (R49): the response is F[1], F[2], F[3] as a big-endian number, DATA[63:24] 0; no state written; its one
legal word. -/
def Obligations.PRawReturnsTheRawPressure : Prop :=
  (∀ s : State, ∃ d : Word, exec .pRaw s = .next { s with responses := s.responses ++ [⟨false, d⟩] } ∧
    d.toNat = s.frame[1].toNat * 65536 + s.frame[2].toNat * 256 + s.frame[3].toNat ∧ d.extractLsb' 24 40 = 0#40) ∧
  SoleLegalWord 0x7000000000000000#64 .pRaw

/-- T_RAW (R50): the response is F[4], F[5], F[6] as a big-endian number, DATA[63:24] 0; no state written; 0 in the
reset state; its one legal word. -/
def Obligations.TRawReturnsTheRawTemperature : Prop :=
  (∀ s : State, ∃ d : Word, exec .tRaw s = .next { s with responses := s.responses ++ [⟨false, d⟩] } ∧
    d.toNat = s.frame[4].toNat * 65536 + s.frame[5].toNat * 256 + s.frame[6].toNat ∧ d.extractLsb' 24 40 = 0#40) ∧
  exec .tRaw State.reset = .next { State.reset with responses := [⟨false, 0#64⟩] } ∧
  SoleLegalWord 0x8000000000000000#64 .tRaw

/-- DECODE_ALL (R51, the layout of R37): DATA[58:56] is the ST_CODE answer, DATA[47:24] the P_RAW answer, DATA[23:0]
the T_RAW answer, frame byte i stands at [55-8i : 48-8i] (R21), DATA[63:59] is 0; no state written; its one legal
word. -/
def Obligations.DecodeAllJoinsTheDecodes : Prop :=
  (∀ s : State, ∃ d c p q : Word,
    exec .decodeAll s = .next { s with responses := s.responses ++ [⟨false, d⟩] } ∧
    exec .stCode s = .next { s with responses := s.responses ++ [⟨false, c⟩] } ∧
    exec .pRaw s = .next { s with responses := s.responses ++ [⟨false, p⟩] } ∧
    exec .tRaw s = .next { s with responses := s.responses ++ [⟨false, q⟩] } ∧
    d.extractLsb' 59 5 = 0#5 ∧ d.extractLsb' 56 3 = c.extractLsb' 0 3 ∧
    (∀ i : Fin 7, d.extractLsb' (48 - 8 * i.val) 8 = s.frame[i]) ∧
    d.extractLsb' 24 24 = p.extractLsb' 0 24 ∧ d.extractLsb' 0 24 = q.extractLsb' 0 24) ∧
  exec .decodeAll State.reset = .next { State.reset with responses := [⟨false, 0x0200000000000000#64⟩] } ∧
  SoleLegalWord 0x9000000000000000#64 .decodeAll

/-- A FRM_LOAD request and a DECODE_ALL right after it: DATA[55:0] of the second response is the operand of the first
request (R37, R71). -/
def Obligations.DecodeAllReturnsTheLoadedOperand : Prop :=
  ∀ (s : State) (w : Word) (rest : List HostEvent), w.extractLsb' 60 4 = 0x1#4 → w.extractLsb' 56 4 = 0#4 →
    s.inbox = .request w :: .request 0x9000000000000000#64 :: rest →
    ∃ (t : State) (d : Word), runSteps 2 s = .next t ∧ t.inbox = rest ∧
      t.responses = s.responses ++ [⟨false, 0xF#64⟩, ⟨false, d⟩] ∧ d.extractLsb' 0 56 = w.extractLsb' 0 56

/-! ## The configuration table (R52 to R55) -/

/-- calib (R52, the layout of R36): Gage and Absolute have zero reference 1638 and range FS, Differential 8192 and
twice FS, which is at most 510. -/
def Obligations.CalibrationFollowsTheSensorType : Prop :=
  ∀ fs : Byte,
    IsCalibWord (calibWord .gage fs) fs 0#2 1638 fs.toNat ∧
    IsCalibWord (calibWord .absolute fs) fs 2#2 1638 fs.toNat ∧
    IsCalibWord (calibWord .differential fs) fs 1#2 8192 (fs.toNat * 2) ∧ fs.toNat * 2 ≤ 510 ∧
    ∀ t : SensorType, (calib t fs).setWidth 64 = calibWord t fs

/-- The preset table (R53): each id with its type, full scale, zero reference and range; ids 7 and 15 have no entry;
the model names; no entry is Absolute. -/
def Obligations.PresetTableHasTheseEntries : Prop :=
  (List.range 16).map (fun n => (rom (BitVec.ofNat 4 n)).map fun e =>
      (e.ty.bits.toNat, e.fs.toNat, (zeroRef e.ty).toNat, (pressureRange e.ty e.fs).toNat)) =
    [some (0, 1, 1638, 1), some (0, 2, 1638, 2), some (0, 5, 1638, 5), some (0, 10, 1638, 10), some (0, 20, 1638, 20),
     some (0, 30, 1638, 30), some (0, 60, 1638, 60), none,
     some (1, 1, 8192, 2), some (1, 2, 8192, 4), some (1, 5, 8192, 10), some (1, 10, 8192, 20), some (1, 20, 8192, 40),
     some (1, 30, 8192, 60), some (1, 60, 8192, 120), none] ∧
  [Model.L01G, .L02G, .L05G, .L10G, .L20G, .L30G, .L60G, .L01D, .L02D, .L05D, .L10D, .L20D, .L30D, .L60D].map
    (fun m => m.pid.toNat) = [0, 1, 2, 3, 4, 5, 6, 8, 9, 10, 11, 12, 13, 14] ∧
  ∀ (pid : BitVec 4) (e : Preset), rom pid = some e → e.ty ≠ .absolute

/-- PRESET_LOOKUP (R54): for an id whose low three bits are not 7 the calibration word of its type (PID[3]) and scale
(PID[2:0], R33), the same from every state; PRESET_INVALID for 7 and 15; the encoding, and RSVD_NONZERO. -/
def Obligations.PresetLookupReturnsTheCalibration : Prop :=
  (∀ pid : BitVec 4, pid.extractLsb' 0 3 ≠ 7#3 → ∃ (d : Word) (fs : Nat),
    [1, 2, 5, 10, 20, 30, 60][(pid.extractLsb' 0 3).toNat]? = some fs ∧
    (pid.getLsbD 3 = false → IsCalibWord d (BitVec.ofNat 8 fs) 0#2 1638 fs) ∧
    (pid.getLsbD 3 = true → IsCalibWord d (BitVec.ofNat 8 fs) 1#2 8192 (fs * 2)) ∧
    ∀ s : State, exec (.presetLookup pid) s = .next { s with responses := s.responses ++ [⟨false, d⟩] }) ∧
  (∀ (pid : BitVec 4) (s : State), pid.extractLsb' 0 3 = 7#3 →
    exec (.presetLookup pid) s = .next { s with responses := s.responses ++ [⟨true, 0xA4#64⟩] }) ∧
  (∀ w : Word, w.extractLsb' 60 4 = 0xA#4 → w.extractLsb' 4 56 = 0#56 →
    decode w = .instr (.presetLookup (w.extractLsb' 0 4))) ∧
  ∀ w : Word, w.extractLsb' 60 4 = 0xA#4 → w.extractLsb' 4 56 ≠ 0#56 → decode w = .reject .rsvdNonzero

/-- CAL_DERIVE (R55): the calibration word of any type but 3 and any full scale, the same from every state; TYPE_INVALID
for type 3; the word of a preset's type and scale is the PRESET_LOOKUP answer; the encoding, and RSVD_NONZERO. -/
def Obligations.CalDeriveReturnsTheCalibration : Prop :=
  (∀ (ty : BitVec 2) (fs : Byte), ty ≠ 3#2 → ∃ d : Word,
    (ty = 1#2 → IsCalibWord d fs 1#2 8192 (fs.toNat * 2)) ∧ (ty ≠ 1#2 → IsCalibWord d fs ty 1638 fs.toNat) ∧
    ∀ s : State, exec (.calDerive ty fs) s = .next { s with responses := s.responses ++ [⟨false, d⟩] }) ∧
  (∀ (fs : Byte) (s : State),
    exec (.calDerive 3#2 fs) s = .next { s with responses := s.responses ++ [⟨true, 0xB5#64⟩] }) ∧
  (∀ (pid : BitVec 4) (e : Preset) (s : State), rom pid = some e →
    ∃ t : State, exec (.calDerive e.ty.bits e.fs) s = .next t ∧ exec (.presetLookup pid) s = .next t) ∧
  (∀ w : Word, w.extractLsb' 60 4 = 0xB#4 → w.extractLsb' 10 50 = 0#50 →
    decode w = .instr (.calDerive (w.extractLsb' 8 2) (w.extractLsb' 0 8))) ∧
  ∀ w : Word, w.extractLsb' 60 4 = 0xB#4 → w.extractLsb' 10 50 ≠ 0#50 → decode w = .reject .rsvdNonzero

/-! ## Reset (R18, R65) -/

/-- The state after reset (R18): every FRAME byte 8'h00, WIDX 0, COMPLETE 0; ST_CODE then answers NoPower, P_RAW and
T_RAW answer 0. The ROM row of R18 holds by construction: ROM is a constant of the model (log 4). -/
def Obligations.ResetLeavesTheEmptyFrame : Prop :=
  (∀ i : Fin 7, State.reset.frame[i] = 0#8) ∧ State.reset.widx = 0#3 ∧ State.reset.complete = false ∧
  exec .stCode State.reset = .next { State.reset with responses := [⟨false, 2#64⟩] } ∧
  exec .pRaw State.reset = .next { State.reset with responses := [⟨false, 0#64⟩] } ∧
  exec .tRaw State.reset = .next { State.reset with responses := [⟨false, 0#64⟩] }

/-- The reset event (R65): every FRAME byte to 8'h00 and WIDX to 0 from any state, no response, the host's later events
kept; FRM_CLEAR leaves the same FRAME and WIDX. -/
def Obligations.ResetEventEmptiesTheFrameAndAnswersNothing : Prop :=
  ∀ (s : State) (rest : List HostEvent), s.inbox = .reset :: rest →
    step s = .next { s with frame := #v[0, 0, 0, 0, 0, 0, 0], widx := 0#3, inbox := rest } ∧
    ∃ t : State, exec .frmClear s = .next t ∧ t.frame = #v[0, 0, 0, 0, 0, 0, 0] ∧ t.widx = 0#3

/-! ## The whole machine -/

/-- R67's invariant is kept by every step from every state that has it. -/
def Obligations.StepKeepsZeroTail : Prop :=
  ∀ s t : State, ZeroTail s → step s = .next t → ZeroTail t

/-- R67's invariant holds after reset. -/
def Obligations.ResetHasZeroTail : Prop := ZeroTail State.reset

/-- R67: in every state that any events of the host lead to from reset, the bytes at or above WIDX are 8'h00. -/
def Obligations.EveryReachableStateHasZeroTail : Prop :=
  ∀ (es : List HostEvent) (n : Nat) (t : State), runSteps n { State.reset with inbox := es } = .next t → ZeroTail t

/-- Every step keeps that each ERR 1 response given so far holds a cause code of R57 and no bit above bit 7 (R56). -/
def Obligations.StepKeepsResponsesLegal : Prop :=
  ∀ s t : State, ResponsesLegal s → step s = .next t → ResponsesLegal t

/-- No request can hang, and nothing stops the block: every step answers a next state (R73). For a request that is
refused (R56) that it is a next state and no fault is log 6, and for a step with no event to take it is the model's
choice, log 2. -/
def Obligations.EveryStepAnswersANextState : Prop :=
  ∀ s : State, ∃ t : State, step s = .next t

/-- FRAME and WIDX are written only by FRM_LOAD, FRM_PUSH, FRM_CLEAR and reset (R12, R14, R23): a step that changes
either took a reset event or a request with OP 1, 2 or 3. -/
def Obligations.OnlyLoadPushClearAndResetWriteTheBlock : Prop :=
  ∀ s t : State, step s = .next t → (t.frame ≠ s.frame ∨ t.widx ≠ s.widx) →
    (∃ rest, s.inbox = .reset :: rest) ∨
    ∃ (w : Word) (rest : List HostEvent), s.inbox = .request w :: rest ∧
      (w.extractLsb' 60 4 = 0x1#4 ∨ w.extractLsb' 60 4 = 0x2#4 ∨ w.extractLsb' 60 4 = 0x3#4)

/-- The step takes the host's oldest event and no other, a request adds exactly one response behind the earlier ones,
and a reset event adds none (R24, R29, R65). -/
def Obligations.StepTakesOneEventAndAnswersEachRequestOnce : Prop :=
  ∀ s t : State, step s = .next t →
    t.inbox = s.inbox.tail ∧
    (∀ (w : Word) (rest : List HostEvent), s.inbox = .request w :: rest → ∃ r, t.responses = s.responses ++ [r]) ∧
    (∀ rest, s.inbox = .reset :: rest → t.responses = s.responses)

/-- From every state, as many steps as there are events take them all, with one response for each request behind the
responses given before (R73, R29, R7). -/
def Obligations.RunAnswersEveryRequestOnce : Prop :=
  ∀ s : State, ∃ (t : State) (new : List Response), runSteps s.inbox.length s = .next t ∧ t.inbox = [] ∧
    t.responses = s.responses ++ new ∧ new.length = requestCount s.inbox

/-- A response reflects the earlier events and no later one (R24): what a run of events leaves and answers is the same
whatever the host sends after them. -/
def Obligations.LaterEventsNeverChangeEarlierResponses : Prop :=
  ∀ (s : State) (es later : List HostEvent), ∃ t : State,
    runSteps es.length { s with inbox := es } = .next t ∧
    runSteps es.length { s with inbox := es ++ later } = .next { t with inbox := later }

/-- The operations with OP 4 to 11 write no state of the block and are idempotent: run twice they give the same
response twice (R23). -/
def Obligations.ReadingOperationsAreIdempotent : Prop :=
  ∀ (i : Instr) (s : State), 4 ≤ i.op.toNat → ∃ r : Response,
    exec i s = .next { s with responses := s.responses ++ [r] } ∧
    exec i { s with responses := s.responses ++ [r] } = .next { s with responses := s.responses ++ [r, r] }

/-- No decode operation reads WIDX or COMPLETE (R68, R15): with any other write index the response is the same, with
ERR 0. -/
def Obligations.DecodesNeverLookAtTheWriteIndex : Prop :=
  ∀ (i : Instr) (s : State), i ∈ [Instr.stFields, .stCode, .pRaw, .tRaw, .decodeAll] → ∃ d : Word, ∀ v : BitVec 3,
    exec i { s with widx := v } = .next { s with widx := v, responses := s.responses ++ [⟨false, d⟩] }

/-! ## Assembler (R38) -/

/-- The syntax table of R38: the words of every line, of a model or type name and of the pseudo-instructions. -/
def Obligations.AssemblerLinesGiveTheseWords : Prop :=
  (∀ b0 b1 b2 b3 b4 b5 b6 : Byte, (AsmLine.instr (.frmLoad b0 b1 b2 b3 b4 b5 b6)).words =
    [0x1#4 ++ 0x0#4 ++ b0 ++ b1 ++ b2 ++ b3 ++ b4 ++ b5 ++ b6]) ∧
  (∀ b : Byte, (AsmLine.instr (.frmPush b)).words = [0x2#4 ++ 0#52 ++ b]) ∧
  (AsmLine.instr .frmClear).words = [0x3000000000000000#64] ∧
  (AsmLine.instr .frmStat).words = [0x4000000000000000#64] ∧
  (AsmLine.instr .stFields).words = [0x5000000000000000#64] ∧
  (AsmLine.instr .stCode).words = [0x6000000000000000#64] ∧
  (AsmLine.instr .pRaw).words = [0x7000000000000000#64] ∧
  (AsmLine.instr .tRaw).words = [0x8000000000000000#64] ∧
  (AsmLine.instr .decodeAll).words = [0x9000000000000000#64] ∧
  (∀ pid : BitVec 4, (AsmLine.instr (.presetLookup pid)).words = [0xA#4 ++ 0#56 ++ pid]) ∧
  (∀ (ty : BitVec 2) (fs : Byte), (AsmLine.instr (.calDerive ty fs)).words = [0xB#4 ++ 0#50 ++ ty ++ fs]) ∧
  (∀ m : Model, (AsmLine.presetNamed m).words = (AsmLine.instr (.presetLookup m.pid)).words) ∧
  (∀ (t : SensorType) (fs : Byte), (AsmLine.calNamed t fs).words = (AsmLine.instr (.calDerive t.bits fs)).words) ∧
  (∀ b0 b1 b2 b3 b4 b5 b6 : Byte, (AsmLine.frmStream b0 b1 b2 b3 b4 b5 b6).words =
    0x3000000000000000#64 :: [b0, b1, b2, b3, b4, b5, b6].flatMap fun b => (AsmLine.instr (.frmPush b)).words) ∧
  AsmLine.decodeStatus.words = (AsmLine.instr .stCode).words ∧
  (∀ w : Word, (AsmLine.word w).words = [w])

/-! ## The base case of StepKeepsResponsesLegal -/

/-- The reset state has the form that StepKeepsResponsesLegal keeps; it holds no response (log 7). -/
def Obligations.ResetHasResponsesLegal : Prop := ResponsesLegal State.reset
end

