-- ==== Sys2Proof/Laws/Bits.lean ====
section
/-! SUPPORT. Reserved bits as a bit field: a mask of consecutive ones and the field it selects. -/

namespace Sys2Proof

/-- The mask of `len` ones from bit `lo` up. -/
def onesMask (lo len : Nat) : Word := (BitVec.allOnes len).setWidth 64 <<< lo

/-- The masked bits are 0 exactly where the field is 0. -/
theorem and_onesMask_eq_zero (w : Word) (lo len : Nat) (h : lo + len ≤ 64) :
    w &&& onesMask lo len = 0#64 ↔ w.extractLsb' lo len = 0#len := by
  constructor
  · intro hw
    apply BitVec.eq_of_getLsbD_eq
    intro i hi
    have := congrArg (fun v => v.getLsbD (lo + i)) hw
    simp only [onesMask, BitVec.getLsbD_and, BitVec.getLsbD_shiftLeft, BitVec.getLsbD_setWidth,
      BitVec.getLsbD_allOnes, BitVec.getLsbD_zero] at this
    simp only [BitVec.getLsbD_extractLsb', BitVec.getLsbD_zero]
    have h1 : lo + i < 64 := by omega
    have h2 : i < 64 := by omega
    simpa [h1, h2, hi] using this
  · intro hw
    apply BitVec.eq_of_getLsbD_eq
    intro i hi
    simp only [onesMask, BitVec.getLsbD_and, BitVec.getLsbD_shiftLeft, BitVec.getLsbD_setWidth,
      BitVec.getLsbD_allOnes, BitVec.getLsbD_zero]
    by_cases h1 : lo ≤ i ∧ i - lo < len
    · have := congrArg (fun v => v.getLsbD (i - lo)) hw
      simp only [BitVec.getLsbD_extractLsb', BitVec.getLsbD_zero] at this
      have h2 : lo + (i - lo) = i := by omega
      rw [h2] at this
      simp [h1.2] at this
      simp [this]
    · rcases Nat.lt_or_ge i lo with h3 | h3
      · simp [h3]
      · have : ¬ (i - lo < len) := by omega
        simp [this]

theorem rsvMask_frmLoad : rsvMask opFrmLoad = onesMask 56 4 := by decide
theorem rsvMask_frmPush : rsvMask opFrmPush = onesMask 8 52 := by decide
theorem rsvMask_frmClear : rsvMask opFrmClear = onesMask 0 60 := by decide
theorem rsvMask_frmStat : rsvMask opFrmStat = onesMask 0 60 := by decide
theorem rsvMask_stFields : rsvMask opStFields = onesMask 0 60 := by decide
theorem rsvMask_stCode : rsvMask opStCode = onesMask 0 60 := by decide
theorem rsvMask_pRaw : rsvMask opPRaw = onesMask 0 60 := by decide
theorem rsvMask_tRaw : rsvMask opTRaw = onesMask 0 60 := by decide
theorem rsvMask_decodeAll : rsvMask opDecodeAll = onesMask 0 60 := by decide
theorem rsvMask_presetLookup : rsvMask opPresetLookup = onesMask 4 56 := by decide
theorem rsvMask_calDerive : rsvMask opCalDerive = onesMask 10 50 := by decide

end Sys2Proof
end

