-- ==== Sys2Proof/Laws/Decode.lean ====
section
/-! SUPPORT. What the decoder can answer, said once: by the operation selected and the reserved field. -/

namespace Sys2Proof

/-- The decoder accepts a word exactly where an operation is selected and the reserved bits are 0. -/
theorem decode_eq_instr_iff (w : Word) (i : Instr) :
    decode w = .instr i ↔ selectOp w = some i ∧ w &&& rsvMask (opField w) = 0#64 := by
  unfold decode
  split
  · next h => simp [h]
  · next j h => by_cases hm : w &&& rsvMask (opField w) = 0#64 <;> simp [h, hm]

/-- The decoder rejects a word for its OP exactly where no operation is selected. -/
theorem decode_eq_illegalOp_iff (w : Word) : decode w = .reject .illegalOp ↔ selectOp w = none := by
  unfold decode
  split
  · next h => simp [h]
  · next j h => by_cases hm : w &&& rsvMask (opField w) = 0#64 <;> simp [h, hm]

/-- The decoder rejects a word for its reserved bits exactly where an operation is selected and one of them is 1. -/
theorem decode_eq_rsvdNonzero_iff (w : Word) :
    decode w = .reject .rsvdNonzero ↔ (∃ i, selectOp w = some i) ∧ w &&& rsvMask (opField w) ≠ 0#64 := by
  unfold decode
  split
  · next h => simp [h]
  · next j h => by_cases hm : w &&& rsvMask (opField w) = 0#64 <;> simp [h, hm]

/-- The selected operation has the OP that the word carries. -/
theorem selectOp_op {w : Word} {i : Instr} (h : selectOp w = some i) : opField w = i.op := by
  unfold selectOp at h
  repeat' split at h
  all_goals first
    | (cases h; assumption)
    | cases h

/-- No operation is selected exactly for the five illegal codes of R26. -/
theorem selectOp_eq_none_iff (w : Word) :
    selectOp w = none ↔ opField w ∈ [0x0#4, 0xC#4, 0xD#4, 0xE#4, 0xF#4] := by
  unfold selectOp
  generalize opField w = op
  generalize frameByteField w = f, lowByteField w = b, pidField w = p, typeField w = t
  revert op
  simp only [opFrmLoad, opFrmPush, opFrmClear, opFrmStat, opStFields, opStCode, opPRaw, opTRaw, opDecodeAll,
    opPresetLookup, opCalDerive]
  intro op
  obtain ⟨⟨n, hn⟩⟩ := op
  have : n < 16 := hn
  interval_cases n <;> simp

/-- A word whose reserved bits are one field is accepted or rejected by that field alone. -/
theorem decode_of_reserved_field {w : Word} {i : Instr} {lo len : Nat} (hs : selectOp w = some i)
    (hm : rsvMask (opField w) = onesMask lo len) (hl : lo + len ≤ 64) :
    decode w = if w.extractLsb' lo len = 0#len then .instr i else .reject .rsvdNonzero := by
  simp only [decode, hs, hm, and_onesMask_eq_zero w lo len hl]

end Sys2Proof
end

