-- ==== Sys2Proof/Laws/State.lean ====
section
/-! SUPPORT. One lemma per field per update of State. -/

namespace Sys2Proof.Machine

variable (s : State) (f : Vector Byte 7) (v : BitVec 3) (i : Nat) (b : Byte) (es : List HostEvent) (r : Response)

@[simp] theorem State.setFrame_frame : (s.setFrame f).frame = f := rfl
@[simp] theorem State.setFrame_widx : (s.setFrame f).widx = s.widx := rfl
@[simp] theorem State.setFrame_inbox : (s.setFrame f).inbox = s.inbox := rfl
@[simp] theorem State.setFrame_responses : (s.setFrame f).responses = s.responses := rfl

@[simp] theorem State.setWidx_frame : (s.setWidx v).frame = s.frame := rfl
@[simp] theorem State.setWidx_widx : (s.setWidx v).widx = v := rfl
@[simp] theorem State.setWidx_inbox : (s.setWidx v).inbox = s.inbox := rfl
@[simp] theorem State.setWidx_responses : (s.setWidx v).responses = s.responses := rfl

@[simp] theorem State.writeFrame_frame : (s.writeFrame i b).frame = s.frame.setIfInBounds i b := rfl
@[simp] theorem State.writeFrame_widx : (s.writeFrame i b).widx = s.widx := rfl
@[simp] theorem State.writeFrame_inbox : (s.writeFrame i b).inbox = s.inbox := rfl
@[simp] theorem State.writeFrame_responses : (s.writeFrame i b).responses = s.responses := rfl

@[simp] theorem State.clearFrame_frame : s.clearFrame.frame = Vector.replicate 7 0#8 := rfl
@[simp] theorem State.clearFrame_widx : s.clearFrame.widx = 0#3 := rfl
@[simp] theorem State.clearFrame_inbox : s.clearFrame.inbox = s.inbox := rfl
@[simp] theorem State.clearFrame_responses : s.clearFrame.responses = s.responses := rfl

@[simp] theorem State.setInbox_frame : (s.setInbox es).frame = s.frame := rfl
@[simp] theorem State.setInbox_widx : (s.setInbox es).widx = s.widx := rfl
@[simp] theorem State.setInbox_inbox : (s.setInbox es).inbox = es := rfl
@[simp] theorem State.setInbox_responses : (s.setInbox es).responses = s.responses := rfl

@[simp] theorem State.answer_frame : (s.answer r).frame = s.frame := rfl
@[simp] theorem State.answer_widx : (s.answer r).widx = s.widx := rfl
@[simp] theorem State.answer_inbox : (s.answer r).inbox = s.inbox := rfl
@[simp] theorem State.answer_responses : (s.answer r).responses = s.responses ++ [r] := rfl

@[simp] theorem State.readFrame_eq (j : Fin 7) : s.readFrame j = s.frame[j] := rfl

/-- A byte of FRAME after a write to an index below 7. -/
theorem State.readFrame_writeFrame (j : Fin 7) :
    (s.writeFrame i b).readFrame j = if i = j.val then b else s.readFrame j := by
  simp [Vector.getElem_setIfInBounds]

end Sys2Proof.Machine
end

