-- ==== Sys2Proof/Laws/Ops.lean ====
section
/-! SUPPORT. What each shared operation can do, said once, and the fields of the response words it gives. -/

namespace Sys2Proof.Machine

/-! ## The shared operations -/

/-- `respond` answers one next state: the ERR 0 response and no other change. -/
theorem respond_eq_next_iff (d : Word) (s t : State) :
    respond d s = .next t ↔ t = { s with responses := s.responses ++ [⟨false, d⟩] } := by
  simp [respond, State.answer, eq_comm]

/-- `raiseErr` answers one next state: the ERR 1 response and no other change. -/
theorem raiseErr_eq_next_iff (c : Cause) (op : BitVec 4) (s t : State) :
    raiseErr c op s = .next t ↔ t = { s with responses := s.responses ++ [⟨true, errorWord c op⟩] } := by
  simp [raiseErr, State.answer, eq_comm]

/-- `refuseWord` is `raiseErr` with the decoder's cause and the OP as received. -/
theorem refuseWord_eq_next_iff (r : Reject) (w : Word) (s t : State) :
    refuseWord r w s = .next t ↔
      t = { s with responses := s.responses ++ [⟨true, errorWord (rejectCause r) (opField w)⟩] } :=
  raiseErr_eq_next_iff _ _ _ _

/-- `respondStat` answers with the FRM_STAT word of the state it is given. -/
theorem respondStat_eq_next_iff (s t : State) :
    respondStat s = .next t ↔ t = { s with responses := s.responses ++ [⟨false, frmStatWord s⟩] } :=
  respond_eq_next_iff _ _ _

/-- The reset event answers the cleared state. -/
theorem resetEvent_eq_next_iff (s t : State) : resetEvent s = .next t ↔ t = s.clearFrame := by
  simp [resetEvent, eq_comm]

/-! ## Response words -/

/-- The error word by its fields (R56). -/
theorem errorWord_fields (c : Cause) (op : BitVec 4) :
    (errorWord c op).extractLsb' 0 4 = c.code ∧ (errorWord c op).extractLsb' 4 4 = op ∧
      (errorWord c op).extractLsb' 8 56 = 0#56 := by
  cases c <;> revert op <;> decide

/-- Every cause code lies from 1 to 5 (R57). -/
theorem Cause.code_range (c : Cause) : 1 ≤ c.code.toNat ∧ c.code.toNat ≤ 5 := by cases c <;> decide

/-- The FRM_STAT word by its fields (R34). -/
theorem frmStatWord_fields (s : State) : IsStatWord (frmStatWord s) s.widx := by
  have h : ∀ v : BitVec 3, IsStatWord ((BitVec.ofBool (v == 7#3) ++ v).setWidth 64) v := by
    unfold IsStatWord; decide
  exact h s.widx

/-- The calibration word by its fields (R36, R52). -/
theorem calibWord_fields (t : SensorType) (fs : Byte) :
    IsCalibWord (calibWord t fs) fs t.bits (zeroRef t).toNat (pressureRange t fs).toNat := by
  cases t <;> revert fs <;> unfold IsCalibWord <;> decide

end Sys2Proof.Machine
end

