-- ==== Sys2Proof/Laws/Exec.lean ====
section
/-! SUPPORT. What an operation and a step can do, said once. -/

namespace Sys2Proof.Machine

/-- Every operation answers a next state with one more response and the host's events as they were. -/
theorem exec_answers_once (i : Instr) (s : State) :
    ∃ (t : State) (r : Response), exec i s = .next t ∧ t.inbox = s.inbox ∧ t.responses = s.responses ++ [r] := by
  cases i with
  | frmLoad => exact ⟨_, _, rfl, rfl, rfl⟩
  | frmPush b =>
    by_cases h : s.widx = 7#3
    · exact ⟨_, _, if_pos h, rfl, rfl⟩
    · exact ⟨_, _, if_neg h, rfl, rfl⟩
  | frmClear => exact ⟨_, _, rfl, rfl, rfl⟩
  | frmStat => exact ⟨_, _, rfl, rfl, rfl⟩
  | stFields => exact ⟨_, _, rfl, rfl, rfl⟩
  | stCode => exact ⟨_, _, rfl, rfl, rfl⟩
  | pRaw => exact ⟨_, _, rfl, rfl, rfl⟩
  | tRaw => exact ⟨_, _, rfl, rfl, rfl⟩
  | decodeAll => exact ⟨_, _, rfl, rfl, rfl⟩
  | presetLookup pid =>
    simp only [exec, execPresetLookup]
    split
    · exact ⟨_, _, rfl, rfl, rfl⟩
    · exact ⟨_, _, rfl, rfl, rfl⟩
  | calDerive ty fs =>
    simp only [exec, execCalDerive]
    split
    · exact ⟨_, _, rfl, rfl, rfl⟩
    · exact ⟨_, _, rfl, rfl, rfl⟩

/-- An operation with OP 4 to 11 only adds its response. -/
theorem exec_reading_only_answers (i : Instr) (s : State) (h : 4 ≤ i.op.toNat) :
    ∃ r : Response, exec i s = .next (s.answer r) := by
  cases i with
  | frmLoad => exact absurd h (by simp [Instr.op, opFrmLoad])
  | frmPush => exact absurd h (by simp [Instr.op, opFrmPush])
  | frmClear => exact absurd h (by simp [Instr.op, opFrmClear])
  | frmStat => exact ⟨_, rfl⟩
  | stFields => exact ⟨_, rfl⟩
  | stCode => exact ⟨_, rfl⟩
  | pRaw => exact ⟨_, rfl⟩
  | tRaw => exact ⟨_, rfl⟩
  | decodeAll => exact ⟨_, rfl⟩
  | presetLookup pid =>
    simp only [exec, execPresetLookup]
    split
    · exact ⟨_, rfl⟩
    · exact ⟨_, rfl⟩
  | calDerive ty fs =>
    simp only [exec, execCalDerive]
    split
    · exact ⟨_, rfl⟩
    · exact ⟨_, rfl⟩

/-- What a step can do: nothing without an event, the reset event, an operation, or the refusal of a word. -/
theorem step_cases (s : State) :
    (s.inbox = [] ∧ step s = .next s) ∨
    (∃ rest, s.inbox = .reset :: rest ∧ step s = .next (s.setInbox rest).clearFrame) ∨
    (∃ w rest i, s.inbox = .request w :: rest ∧ decode w = .instr i ∧ step s = exec i (s.setInbox rest)) ∨
    (∃ w rest r, s.inbox = .request w :: rest ∧ decode w = .reject r ∧
      step s = .next ((s.setInbox rest).answer ⟨true, errorWord (rejectCause r) (opField w)⟩)) := by
  unfold step
  split
  · next h => exact .inl ⟨h, rfl⟩
  · next rest h => exact .inr (.inl ⟨rest, h, rfl⟩)
  · next w rest h =>
    split
    · next i hd => exact .inr (.inr (.inl ⟨w, rest, i, h, hd, rfl⟩))
    · next r hd => exact .inr (.inr (.inr ⟨w, rest, r, h, hd, rfl⟩))

end Sys2Proof.Machine
end

