-- ==== Sys2Proof/Laws/PerInstr.lean ====
section
/-! SUPPORT. Per-instruction laws: the encoded word carries the operation's OP and no reserved bit. -/

namespace Sys2Proof.Laws.EncodedWord

/-- The OP field of the encoded word is the operation's, and the reserved bits are 0 (R25, R27). -/
def Statement (i : Instr) : Prop :=
  opField (encode i) = i.op ∧ encode i &&& rsvMask i.op = 0#64

theorem frmLoad (b0 b1 b2 b3 b4 b5 b6 : Byte) : Statement (.frmLoad b0 b1 b2 b3 b4 b5 b6) := by
  constructor
  · simp (disch := decide) only [encode, frmLoadWord, opField, Instr.op, BitVec.extractLsb'_append_eq_of_le]
    decide
  · rw [Instr.op, rsvMask_frmLoad, and_onesMask_eq_zero _ _ _ (by omega)]
    simp (disch := decide) only [encode, frmLoadWord, BitVec.extractLsb'_append_eq_of_le]
    decide

theorem frmPush (b : Byte) : Statement (.frmPush b) := by
  constructor
  · simp (disch := decide) only [encode, frmPushWord, opField, Instr.op, BitVec.extractLsb'_append_eq_of_le]
    decide
  · rw [Instr.op, rsvMask_frmPush, and_onesMask_eq_zero _ _ _ (by omega)]
    simp (disch := decide) only [encode, frmPushWord, BitVec.extractLsb'_append_eq_of_le]
    decide

theorem frmClear : Statement .frmClear := by constructor <;> decide
theorem frmStat : Statement .frmStat := by constructor <;> decide
theorem stFields : Statement .stFields := by constructor <;> decide
theorem stCode : Statement .stCode := by constructor <;> decide
theorem pRaw : Statement .pRaw := by constructor <;> decide
theorem tRaw : Statement .tRaw := by constructor <;> decide
theorem decodeAll : Statement .decodeAll := by constructor <;> decide

theorem presetLookup (pid : BitVec 4) : Statement (.presetLookup pid) := by
  constructor
  · simp (disch := decide) only [encode, presetLookupWord, opField, Instr.op, BitVec.extractLsb'_append_eq_of_le]
    decide
  · rw [Instr.op, rsvMask_presetLookup, and_onesMask_eq_zero _ _ _ (by omega)]
    simp (disch := decide) only [encode, presetLookupWord, BitVec.extractLsb'_append_eq_of_le]
    decide

theorem calDerive (ty : BitVec 2) (fs : Byte) : Statement (.calDerive ty fs) := by
  constructor
  · simp (disch := decide) only [encode, calDeriveWord, opField, Instr.op, BitVec.extractLsb'_append_eq_of_le]
    decide
  · rw [Instr.op, rsvMask_calDerive, and_onesMask_eq_zero _ _ _ (by omega)]
    simp (disch := decide) only [encode, calDeriveWord, BitVec.extractLsb'_append_eq_of_le]
    decide

/-- The law for every operation. -/
theorem all (i : Instr) : Statement i := by
  cases i with
  | frmLoad b0 b1 b2 b3 b4 b5 b6 => exact frmLoad b0 b1 b2 b3 b4 b5 b6
  | frmPush b => exact frmPush b
  | frmClear => exact frmClear
  | frmStat => exact frmStat
  | stFields => exact stFields
  | stCode => exact stCode
  | pRaw => exact pRaw
  | tRaw => exact tRaw
  | decodeAll => exact decodeAll
  | presetLookup pid => exact presetLookup pid
  | calDerive ty fs => exact calDerive ty fs

end Sys2Proof.Laws.EncodedWord
end

