-- ==== Sys2Proof/Tests/Slice0.lean ====
section
/-! SUPPORT. The model's own tests. Expected values are the spec's: the words of R38, the examples of R40 to R55 and the
vectors of 95_test_vectors.md. Then one witness for the hypotheses of each statement that has some. -/

namespace Sys2Proof.Machine.Tests

/-- The next state of an outcome. -/
def nextOf : Outcome → Option State
  | .next t => some t
  | .fault _ => none
  | .refused _ => none

/-- A state with this frame and write index, these events to come, and no response yet. -/
def st (f : Vector Byte 7) (v : BitVec 3) (es : List HostEvent := []) : State := ⟨f, v, es, []⟩

/-- The frame of the spec's examples (R40). -/
def exampleFrame : Vector Byte 7 := #v[0x40, 0x12, 0x34, 0x56, 0x00, 0x07, 0xFF]

/-- A loaded frame with this status byte. -/
def withStatus (b : Byte) : State := st #v[b, 0, 0, 0, 0, 0, 0] 7#3

/-- What an operation answers. -/
def answerOf (i : Instr) (s : State) : Option (List Response) := (nextOf (exec i s)).map State.responses

/-! ## Well-formed words: an ill-formed word for each way to fail the check -/

theorem test_wellFormed_refuses_op_0 : WellFormed 0x0000000000000000#64 = false := by decide
theorem test_wellFormed_refuses_op_C : WellFormed 0xC000000000000000#64 = false := by decide
theorem test_wellFormed_refuses_op_F : WellFormed 0xFFFFFFFFFFFFFFFF#64 = false := by decide
theorem test_wellFormed_refuses_reserved_load : WellFormed 0x1100000000000000#64 = false := by decide
theorem test_wellFormed_refuses_reserved_push : WellFormed 0x2000000000000160#64 = false := by decide
theorem test_wellFormed_refuses_reserved_plain : WellFormed 0x3000000000000001#64 = false := by decide
theorem test_wellFormed_refuses_reserved_preset : WellFormed 0xA000000000000017#64 = false := by decide
theorem test_wellFormed_refuses_reserved_cal : WellFormed 0xB000000000000405#64 = false := by decide
theorem test_wellFormed_accepts : WellFormed 0xB000000000000305#64 = true := by decide

/-! ## Decoding: a word of each row, written out from R38 -/

theorem test_decode_frmLoad : decode 0x10404A5B6C7D8E9F#64 =
    .instr (.frmLoad 0x40#8 0x4A#8 0x5B#8 0x6C#8 0x7D#8 0x8E#8 0x9F#8) := by decide
theorem test_decode_frmPush : decode 0x2000000000000060#64 = .instr (.frmPush 0x60#8) := by decide
theorem test_decode_frmClear : decode 0x3000000000000000#64 = .instr .frmClear := by decide
theorem test_decode_frmStat : decode 0x4000000000000000#64 = .instr .frmStat := by decide
theorem test_decode_stFields : decode 0x5000000000000000#64 = .instr .stFields := by decide
theorem test_decode_stCode : decode 0x6000000000000000#64 = .instr .stCode := by decide
theorem test_decode_pRaw : decode 0x7000000000000000#64 = .instr .pRaw := by decide
theorem test_decode_tRaw : decode 0x8000000000000000#64 = .instr .tRaw := by decide
theorem test_decode_decodeAll : decode 0x9000000000000000#64 = .instr .decodeAll := by decide
theorem test_decode_presetLookup : decode 0xA00000000000000B#64 = .instr (.presetLookup 0xB#4) := by decide
theorem test_decode_calDerive : decode 0xB00000000000020F#64 = .instr (.calDerive 2#2 15#8) := by decide
theorem test_decode_illegal : decode 0x0FFFFFFFFFFFFFFF#64 = .reject .illegalOp := by decide
theorem test_decode_illegal_before_reserved : decode 0xFFFFFFFFFFFFFFFF#64 = .reject .illegalOp := by decide
theorem test_decode_reserved : decode 0x9800000000000000#64 = .reject .rsvdNonzero := by decide
theorem test_decode_reserved_before_type : decode 0xB000000000000705#64 = .reject .rsvdNonzero := by decide
theorem test_decodeTableWord : decodeTableWord 64 0x2000000000000060 = some (.frmPush 0x60#8) := by decide
theorem test_decodeTableWord_refused : decodeTableWord 64 0x4F00000000000000 = none := by decide

/-! ## One operation on a small state -/

theorem test_frmLoad : nextOf (exec (.frmLoad 0x40 0x12 0x34 0x56 0x00 0x07 0xFF) (st #v[0x11, 0x22, 0, 0, 0, 0, 0] 2#3)) =
    some ⟨exampleFrame, 7#3, [], [⟨false, 0xF#64⟩]⟩ := by decide
theorem test_frmPush_seventh : nextOf (exec (.frmPush 7) (st #v[1, 2, 3, 4, 5, 6, 0] 6#3)) =
    some ⟨#v[1, 2, 3, 4, 5, 6, 7], 7#3, [], [⟨false, 0xF#64⟩]⟩ := by decide
theorem test_frmPush_overrun : nextOf (exec (.frmPush 0x99) (st exampleFrame 7#3)) =
    some ⟨exampleFrame, 7#3, [], [⟨true, 0x23#64⟩]⟩ := by decide
theorem test_frmClear : nextOf (exec .frmClear (st exampleFrame 7#3)) =
    some ⟨#v[0, 0, 0, 0, 0, 0, 0], 0#3, [], [⟨false, 0#64⟩]⟩ := by decide
theorem test_frmStat : answerOf .frmStat (st #v[1, 2, 3, 0, 0, 0, 0] 3#3) = some [⟨false, 3#64⟩] := by decide
theorem test_stFields_5D : answerOf .stFields (withStatus 0x5D) = some [⟨false, 0x5D3D#64⟩] := by decide
theorem test_stFields_C2 : answerOf .stFields (withStatus 0xC2) = some [⟨false, 0xC2C1#64⟩] := by decide
theorem test_stCode_5D : answerOf .stCode (withStatus 0x5D) = some [⟨false, 4#64⟩] := by decide
theorem test_stCode_C2 : answerOf .stCode (withStatus 0xC2) = some [⟨false, 0#64⟩] := by decide
theorem test_pRaw : answerOf .pRaw (st exampleFrame 7#3) = some [⟨false, 0x123456#64⟩] := by decide
theorem test_pRaw_no_sign : answerOf .pRaw (st #v[0x40, 0x80, 0, 1, 1, 0, 0x80] 7#3) = some [⟨false, 0x800001#64⟩] := by
  decide
theorem test_tRaw : answerOf .tRaw (st #v[0x40, 0x80, 0, 1, 1, 0, 0x80] 7#3) = some [⟨false, 0x010080#64⟩] := by decide
theorem test_decodeAll : answerOf .decodeAll (st #v[0xFF, 0xFF, 0xFF, 0xFF, 0xFF, 0xFF, 0xFF] 7#3) =
    some [⟨false, 0x01FFFFFFFFFFFFFF#64⟩] := by decide
theorem test_decodeAll_partial : answerOf .decodeAll (st #v[0x40, 0x12, 0, 0, 0, 0, 0] 2#3) =
    some [⟨false, 0x0040120000000000#64⟩] := by decide
theorem test_presetLookup_L05D : answerOf (.presetLookup 0xA) State.reset = some [⟨false, 0x0000000A20000105#64⟩] := by
  decide
theorem test_presetLookup_invalid : answerOf (.presetLookup 0xF) State.reset = some [⟨true, 0xA4#64⟩] := by decide
theorem test_calDerive_differential_255 : answerOf (.calDerive 1 255) State.reset =
    some [⟨false, 0x000001FE200001FF#64⟩] := by decide
theorem test_calDerive_type_3 : answerOf (.calDerive 3 5) State.reset = some [⟨true, 0xB5#64⟩] := by decide

/-! ## The step -/

theorem test_step_reserved_before_overrun : nextOf (step (st exampleFrame 7#3 [.request 0x2000000000000160#64])) =
    some ⟨exampleFrame, 7#3, [], [⟨true, 0x22#64⟩]⟩ := by decide
theorem test_step_illegal : nextOf (step (st exampleFrame 7#3 [.request 0xD000000000000000#64])) =
    some ⟨exampleFrame, 7#3, [], [⟨true, 0xD1#64⟩]⟩ := by decide
theorem test_step_reset : nextOf (step (st exampleFrame 7#3 [.reset, .reset])) =
    some ⟨#v[0, 0, 0, 0, 0, 0, 0], 0#3, [.reset], []⟩ := by decide
theorem test_withFetchWord : nextOf (step (State.reset.withFetchWord 64 0x2000000000000060)) =
    some ⟨#v[0x60, 0, 0, 0, 0, 0, 0], 1#3, [], [⟨false, 1#64⟩]⟩ := by decide

/-! ## The assembler (R38) -/

theorem test_asm_load : assembleText "frm.load 0x40, 0x12, 0x34, 0x56, 0x00, 0x07, 0xFF" =
    some [0x10401234560007FF#64] := by decide
theorem test_asm_model : assembleText "preset.lookup L05D ; 5 PSI" = some [0xA00000000000000A#64] := by decide
theorem test_asm_type : assembleText "cal.derive absolute, 15" = some [0xB00000000000020F#64] := by decide
theorem test_asm_word : assembleText ".word 0x5100000000000000" = some [0x5100000000000000#64] := by decide
/-- The model's choice of log 15: decimal, not octal. -/
theorem test_asm_leading_zero : assembleText "frm.push 010" = some [0x200000000000000A#64] := by decide
theorem test_asm_too_wide : assembleText "frm.push 256" = none := by decide

/-! ## Witnesses: a concrete case that meets the hypotheses of each statement -/

theorem witness_EncodeOfDecodeIsTheWord : decode 0xB000000000000305#64 = .instr (.calDerive 3#2 5#8) := by decide

theorem witness_DecoderAcceptsExactlyTheOpcodeTable :
    ∃ r ∈ opcodeTable, r.fits 0x2000000000000060#64 = true := by decide

theorem witness_StepRunsTheDecodedInstruction :
    (st exampleFrame 7#3 [.request 0x3000000000000000#64, .reset]).inbox = .request 0x3000000000000000#64 :: [.reset] ∧
      decode 0x3000000000000000#64 = .instr .frmClear := by decide

/-- One request for each cause of R57 and one for none, each at the write index or operand where clauses meet. -/
theorem witness_RequestIsRefusedExactlyForItsFirstCause :
    (st exampleFrame 7#3 [.request 0xCFFFFFFFFFFFFFFF#64]).inbox = [.request 0xCFFFFFFFFFFFFFFF#64] ∧
    firstCause 7#3 0xCFFFFFFFFFFFFFFF#64 = some 1#4 ∧ firstCause 7#3 0x2000000000000100#64 = some 2#4 ∧
    firstCause 7#3 0x20000000000000FF#64 = some 3#4 ∧ firstCause 6#3 0x20000000000000FF#64 = none ∧
    firstCause 0#3 0xA000000000000007#64 = some 4#4 ∧ firstCause 0#3 0xA00000000000000F#64 = some 4#4 ∧
    firstCause 0#3 0xA000000000000017#64 = some 2#4 ∧ firstCause 0#3 0xA000000000000008#64 = none ∧
    firstCause 0#3 0xB0000000000003FF#64 = some 5#4 ∧ firstCause 0#3 0xB0000000000002FF#64 = none := by decide

theorem witness_BlockNeverActsOnItsOwn : (st exampleFrame 7#3).inbox = [] := by decide

theorem witness_FrmLoadWritesTheWholeFrame :
    (0x10FFFFFFFFFFFFFF#64).extractLsb' 60 4 = 0x1#4 ∧ (0x10FFFFFFFFFFFFFF#64).extractLsb' 56 4 = 0#4 ∧
    (0x1100000000000000#64).extractLsb' 60 4 = 0x1#4 ∧ (0x1100000000000000#64).extractLsb' 56 4 ≠ 0#4 := by decide

theorem witness_FrmPushAppendsOneByteOrOverruns :
    (st #v[1, 2, 3, 4, 5, 6, 0] 6#3).widx ≠ 7#3 ∧ (st exampleFrame 7#3).widx = 7#3 ∧
    (0x20000000000000FF#64).extractLsb' 60 4 = 0x2#4 ∧ (0x20000000000000FF#64).extractLsb' 8 52 = 0#52 ∧
    (0x2000000000000100#64).extractLsb' 60 4 = 0x2#4 ∧ (0x2000000000000100#64).extractLsb' 8 52 ≠ 0#52 := by decide

/-! The reserved clause of `SoleLegalWord`, for the seven operations without operand. -/

theorem witness_FrmClearEmptiesTheFrame :
    (0x3000000000000001#64).extractLsb' 60 4 = (0x3000000000000000#64).extractLsb' 60 4 ∧
    (0x3000000000000001#64).extractLsb' 0 60 ≠ 0#60 := by decide

theorem witness_FrmStatReportsTheWriteIndex :
    (0x4F00000000000000#64).extractLsb' 60 4 = (0x4000000000000000#64).extractLsb' 60 4 ∧
    (0x4F00000000000000#64).extractLsb' 0 60 ≠ 0#60 := by decide

theorem witness_StFieldsReturnsTheSubFields :
    (0x5000000000000100#64).extractLsb' 60 4 = (0x5000000000000000#64).extractLsb' 60 4 ∧
    (0x5000000000000100#64).extractLsb' 0 60 ≠ 0#60 := by decide

theorem witness_StCodeReturnsTheStatusCode :
    (0x6000000000000001#64).extractLsb' 60 4 = (0x6000000000000000#64).extractLsb' 60 4 ∧
    (0x6000000000000001#64).extractLsb' 0 60 ≠ 0#60 := by decide

theorem witness_PRawReturnsTheRawPressure :
    (0x7000000000000010#64).extractLsb' 60 4 = (0x7000000000000000#64).extractLsb' 60 4 ∧
    (0x7000000000000010#64).extractLsb' 0 60 ≠ 0#60 := by decide

theorem witness_TRawReturnsTheRawTemperature :
    (0x8000000000000001#64).extractLsb' 60 4 = (0x8000000000000000#64).extractLsb' 60 4 ∧
    (0x8000000000000001#64).extractLsb' 0 60 ≠ 0#60 := by decide

theorem witness_DecodeAllJoinsTheDecodes :
    (0x9800000000000000#64).extractLsb' 60 4 = (0x9000000000000000#64).extractLsb' 60 4 ∧
    (0x9800000000000000#64).extractLsb' 0 60 ≠ 0#60 := by decide

theorem witness_SerialLoadRestartsOnlyAfterClearOrReset :
    (st #v[1, 2, 3, 4, 5, 6, 0] 6#3).widx = 6#3 ∧ (st exampleFrame 7#3).widx = 7#3 ∧
    Instr.frmLoad 0 0 0 0 0 0 0 ≠ .frmClear ∧
    ((nextOf (step (st exampleFrame 7#3 [.request 0x3000000000000000#64]))).any fun t => t.widx != 7#3) ∧
    ((nextOf (step (st exampleFrame 7#3 [.reset]))).any fun t => t.widx != 7#3) := by decide

/-- A refused request and a decode, with a status byte that is not Ok and one that is. -/
theorem witness_StatusCodeOtherThanOkIsNoError :
    (st exampleFrame 7#3 [.request 0x20000000000000FF#64]).inbox = .request 0x20000000000000FF#64 :: [] ∧
    (st exampleFrame 7#3 [.request 0x9000000000000000#64]).inbox = .request 0x9000000000000000#64 :: [] ∧
    statusCode 0x61#8 ≠ .ok ∧ statusCode 0x40#8 = .ok := by decide

theorem witness_StreamLoadsTheFrameThatOneLoadDoes :
    (st exampleFrame 5#3 (asmEvents [.frmStream 1 2 3 4 5 6 7] ++ [.reset])).inbox =
      asmEvents [.frmStream 1 2 3 4 5 6 7] ++ [.reset] := by decide

theorem witness_DecodeAllReturnsTheLoadedOperand :
    (0x10FF00FF00FF00FF#64).extractLsb' 60 4 = 0x1#4 ∧ (0x10FF00FF00FF00FF#64).extractLsb' 56 4 = 0#4 ∧
    (st exampleFrame 3#3 [.request 0x10FF00FF00FF00FF#64, .request 0x9000000000000000#64, .reset]).inbox =
      .request 0x10FF00FF00FF00FF#64 :: .request 0x9000000000000000#64 :: [.reset] := by decide

theorem witness_PresetTableHasTheseEntries : rom 0xE#4 = some ⟨.differential, 60#8⟩ := by decide

theorem witness_PresetLookupReturnsTheCalibration :
    (0x6#4).extractLsb' 0 3 ≠ 7#3 ∧ (0x6#4).getLsbD 3 = false ∧ (0x8#4).extractLsb' 0 3 ≠ 7#3 ∧
    (0x8#4).getLsbD 3 = true ∧ (0x7#4).extractLsb' 0 3 = 7#3 ∧ (0xF#4).extractLsb' 0 3 = 7#3 ∧
    (0xA00000000000000F#64).extractLsb' 60 4 = 0xA#4 ∧ (0xA00000000000000F#64).extractLsb' 4 56 = 0#56 ∧
    (0xA000000000000010#64).extractLsb' 60 4 = 0xA#4 ∧ (0xA000000000000010#64).extractLsb' 4 56 ≠ 0#56 := by decide

theorem witness_CalDeriveReturnsTheCalibration :
    (1#2 : BitVec 2) ≠ 3#2 ∧ (2#2 : BitVec 2) ≠ 3#2 ∧ (2#2 : BitVec 2) ≠ 1#2 ∧ rom 0x8#4 = some ⟨.differential, 1#8⟩ ∧
    (0xB0000000000003FF#64).extractLsb' 60 4 = 0xB#4 ∧ (0xB0000000000003FF#64).extractLsb' 10 50 = 0#50 ∧
    (0xB000000000000400#64).extractLsb' 60 4 = 0xB#4 ∧ (0xB000000000000400#64).extractLsb' 10 50 ≠ 0#50 := by decide

theorem witness_ResetEventEmptiesTheFrameAndAnswersNothing :
    (st exampleFrame 7#3 [.reset, .request 0#64]).inbox = .reset :: [.request 0#64] := by decide

/-- A partial frame whose next event is a push: it has the invariant and it steps. -/
theorem witness_StepKeepsZeroTail :
    ZeroTail (st #v[0x40, 0x12, 0, 0, 0, 0, 0] 2#3 [.request 0x2000000000000034#64]) ∧
    nextOf (step (st #v[0x40, 0x12, 0, 0, 0, 0, 0] 2#3 [.request 0x2000000000000034#64])) =
      some ⟨#v[0x40, 0x12, 0x34, 0, 0, 0, 0], 3#3, [], [⟨false, 3#64⟩]⟩ := by decide

theorem witness_EveryReachableStateHasZeroTail :
    nextOf (runSteps 1 { State.reset with inbox := [.request 0x2000000000000034#64] }) =
      some ⟨#v[0x34, 0, 0, 0, 0, 0, 0], 1#3, [], [⟨false, 1#64⟩]⟩ := by decide

theorem witness_StepKeepsResponsesLegal :
    ResponsesLegal ⟨exampleFrame, 7#3, [.request 0#64], [⟨true, 0x23#64⟩]⟩ ∧
    nextOf (step ⟨exampleFrame, 7#3, [.request 0#64], [⟨true, 0x23#64⟩]⟩) =
      some ⟨exampleFrame, 7#3, [], [⟨true, 0x23#64⟩, ⟨true, 1#64⟩]⟩ := by decide

theorem witness_OnlyLoadPushClearAndResetWriteTheBlock :
    (nextOf (step (st exampleFrame 7#3 [.request 0x3000000000000000#64]))).any
      fun t => decide (t.frame ≠ exampleFrame ∧ t.widx ≠ 7#3) := by decide

theorem witness_StepTakesOneEventAndAnswersEachRequestOnce :
    (nextOf (step (st exampleFrame 7#3 [.request 0x4000000000000000#64]))).isSome ∧
    (nextOf (step (st exampleFrame 7#3 [.reset]))).isSome := by decide

theorem witness_ReadingOperationsAreIdempotent :
    4 ≤ Instr.frmStat.op.toNat ∧ 4 ≤ (Instr.calDerive 3#2 5#8).op.toNat := by decide

theorem witness_DecodesNeverLookAtTheWriteIndex :
    Instr.decodeAll ∈ [Instr.stFields, .stCode, .pRaw, .tRaw, .decodeAll] := by decide

end Sys2Proof.Machine.Tests
end

section
/-! PROOFS. The block acts only on the host's events (R7). -/

namespace Sys2Proof.Machine

/-- Settles O7: of the four things a step can do (`step_cases`), the three that act begin by taking an event. -/
theorem blockNeverActsOnItsOwn : Obligations.BlockNeverActsOnItsOwn := by
  intro s hempty
  obtain ⟨-, hstep⟩ | ⟨rest, hreset, -⟩ | ⟨w, rest, i, hreq, -, -⟩ | ⟨w, rest, r, hreq, -, -⟩ := step_cases s
  · exact hstep
  · exact absurd (hreset.symm.trans hempty) (List.cons_ne_nil _ _)
  · exact absurd (hreq.symm.trans hempty) (List.cons_ne_nil _ _)
  · exact absurd (hreq.symm.trans hempty) (List.cons_ne_nil _ _)

end Sys2Proof.Machine
end

section
/-! PROOFS. The state of the block: what can write it (R12, R14, R23), and its values after reset (R18). -/

namespace Sys2Proof.Machine

/-! ## What writes FRAME and WIDX -/

/-- The operations below OP 4 are FRM_LOAD, FRM_PUSH and FRM_CLEAR (R26). -/
theorem op_eq_load_push_or_clear {i : Instr} (h : ¬ 4 ≤ i.op.toNat) :
    i.op = opFrmLoad ∨ i.op = opFrmPush ∨ i.op = opFrmClear := by
  cases i with
  | frmLoad => exact .inl rfl
  | frmPush => exact .inr (.inl rfl)
  | frmClear => exact .inr (.inr rfl)
  | _ => exact absurd (Nat.le_of_ble_eq_true rfl) h

/-- An operation with OP 4 to 11 leaves FRAME and WIDX as they were (R23). -/
theorem exec_reading_keeps_block {i : Instr} {s t : State} (hop : 4 ≤ i.op.toNat) (h : exec i s = .next t) :
    t.frame = s.frame ∧ t.widx = s.widx := by
  obtain ⟨r, hr⟩ := exec_reading_only_answers i s hop
  cases hr.symm.trans h
  exact ⟨rfl, rfl⟩

/-- An accepted word carries the OP of its operation (R25). -/
theorem opField_of_decode {w : Word} {i : Instr} (h : decode w = .instr i) : opField w = i.op :=
  selectOp_op ((decode_eq_instr_iff w i).mp h).1

/-- Settles O34: of the four things a step can do (`step_cases`), doing nothing and refusing a word keep FRAME and
WIDX, and so does an operation with OP 4 to 11; what is left is the reset event and OP 1, 2 and 3. -/
theorem onlyLoadPushClearAndResetWriteTheBlock : Obligations.OnlyLoadPushClearAndResetWriteTheBlock := by
  intro s t hstep hchanged
  have not_kept : ¬ (t.frame = s.frame ∧ t.widx = s.widx) := not_and_or.mpr hchanged
  obtain ⟨-, hidle⟩ | ⟨rest, hreset, -⟩ | ⟨w, rest, i, hreq, hdec, hexec⟩ | ⟨w, rest, r, -, -, hrefuse⟩ := step_cases s
  · cases hidle.symm.trans hstep
    exact absurd ⟨rfl, rfl⟩ not_kept
  · exact .inl ⟨rest, hreset⟩
  · refine .inr ⟨w, rest, hreq, ?_⟩
    have hop : ¬ 4 ≤ i.op.toNat := by
      intro hread
      have kept := exec_reading_keeps_block hread (hexec.symm.trans hstep)
      rw [State.setInbox_frame, State.setInbox_widx] at kept
      exact not_kept kept
    have hw := op_eq_load_push_or_clear hop
    rwa [← opField_of_decode hdec] at hw
  · cases hrefuse.symm.trans hstep
    exact absurd ⟨rfl, rfl⟩ not_kept

/-! ## The state after reset -/

/-- Every FRAME byte is 8'h00 after reset (R18). -/
@[simp] theorem State.reset_readFrame (i : Fin 7) : State.reset.readFrame i = 0#8 :=
  Vector.getElem_replicate i.isLt

/-- The raw pressure after reset (R18, R48). -/
theorem pRaw_reset : pRaw State.reset = 0#24 := by
  simp only [pRaw, State.reset_readFrame]
  rfl

/-- The raw temperature after reset (R18, R48). -/
theorem tRaw_reset : tRaw State.reset = 0#24 := by
  simp only [tRaw, State.reset_readFrame]
  rfl

/-- Status byte 8'h00 has the power bit 0, so its ST_CODE word is NoPower's (R31, R44, R46). -/
theorem stCodeWord_zero : stCodeWord 0#8 = 2#64 := by decide

/-- What an operation that answers DATA `d` leaves after reset: the one response, behind no earlier one. -/
theorem respond_reset (d : Word) : respond d State.reset = .next { State.reset with responses := [⟨false, d⟩] } :=
  (respond_eq_next_iff d _ _).mpr rfl

/-- Settles O27: the three answers are read off the reset FRAME, whose bytes are all 8'h00. -/
theorem resetLeavesTheEmptyFrame : Obligations.ResetLeavesTheEmptyFrame := by
  refine ⟨State.reset_readFrame, rfl, rfl, ?_, ?_, ?_⟩
  · simp only [exec, execStCode, State.reset_readFrame, stCodeWord_zero, respond_reset]
  · simp only [exec, execPRaw, pRaw_reset, BitVec.setWidth_zero, respond_reset]
  · simp only [exec, execTRaw, tRaw_reset, BitVec.setWidth_zero, respond_reset]

end Sys2Proof.Machine
end

section
/-! PROOFS. The order in which the host's events take effect, and the operations that write nothing (R23, R24). -/

namespace Sys2Proof.Machine

/-! ## What an operation reads -/

/-- An operation reads FRAME and WIDX only: whatever the host's events and the earlier responses are, it leaves the
same block, the same events, and one response more, the same each time (R23, R24). -/
theorem exec_reads_block_only (i : Instr) (s : State) :
    ∃ (t : State) (r : Response), ∀ (es : List HostEvent) (rs : List Response),
      exec i { s with inbox := es, responses := rs } = .next { t with inbox := es, responses := rs ++ [r] } := by
  cases i with
  | frmLoad b0 b1 b2 b3 b4 b5 b6 =>
    exact ⟨(s.setFrame #v[b0, b1, b2, b3, b4, b5, b6]).setWidx 7#3, ⟨false, frmStatWord (s.setWidx 7#3)⟩,
      fun _ _ => rfl⟩
  | frmPush b =>
    by_cases h : s.widx = 7#3
    · exact ⟨s, ⟨true, errorWord .frameOverrun opFrmPush⟩, fun _ _ => if_pos h⟩
    · exact ⟨(s.writeFrame s.widx.toNat b).setWidx (s.widx + 1#3), ⟨false, frmStatWord (s.setWidx (s.widx + 1#3))⟩,
        fun _ _ => if_neg h⟩
  | frmClear => exact ⟨s.clearFrame, ⟨false, frmStatWord s.clearFrame⟩, fun _ _ => rfl⟩
  | frmStat => exact ⟨s, ⟨false, frmStatWord s⟩, fun _ _ => rfl⟩
  | stFields => exact ⟨s, ⟨false, stFieldsWord (s.readFrame 0)⟩, fun _ _ => rfl⟩
  | stCode => exact ⟨s, ⟨false, stCodeWord (s.readFrame 0)⟩, fun _ _ => rfl⟩
  | pRaw => exact ⟨s, ⟨false, (pRaw s).setWidth 64⟩, fun _ _ => rfl⟩
  | tRaw => exact ⟨s, ⟨false, (tRaw s).setWidth 64⟩, fun _ _ => rfl⟩
  | decodeAll => exact ⟨s, ⟨false, decodeAllWord s⟩, fun _ _ => rfl⟩
  | presetLookup pid =>
    simp only [exec, execPresetLookup]
    split
    · exact ⟨s, _, fun _ _ => rfl⟩
    · exact ⟨s, _, fun _ _ => rfl⟩
  | calDerive ty fs =>
    simp only [exec, execCalDerive]
    split
    · exact ⟨s, _, fun _ _ => rfl⟩
    · exact ⟨s, _, fun _ _ => rfl⟩

/-- Settles O38: the response depends on FRAME and WIDX alone, and an operation with OP 4 to 11 keeps both. -/
theorem readingOperationsAreIdempotent : Obligations.ReadingOperationsAreIdempotent := by
  intro i s hop
  obtain ⟨t, r, hexec⟩ := exec_reads_block_only i s
  obtain ⟨(hframe : t.frame = s.frame), (hwidx : t.widx = s.widx)⟩ :=
    exec_reading_keeps_block hop (hexec s.inbox s.responses)
  refine ⟨r, ?_, ?_⟩
  · simpa only [hframe, hwidx] using hexec s.inbox s.responses
  · simpa only [hframe, hwidx, List.append_assoc, List.singleton_append] using
      hexec s.inbox (s.responses ++ [r])

/-! ## One event -/

/-- A reset event is taken and gives no response, whatever stands behind it (R65). -/
theorem step_of_reset (s : State) (es : List HostEvent) :
    step { s with inbox := .reset :: es } = .next { s.clearFrame with inbox := es } := rfl

/-- A request word is taken and answered once, and neither the events behind it nor the earlier responses change what
it leaves and answers (R24, R29). -/
theorem step_of_request (s : State) (w : Word) :
    ∃ (t : State) (r : Response), ∀ (es : List HostEvent) (rs : List Response),
      step { s with inbox := .request w :: es, responses := rs } =
        .next { t with inbox := es, responses := rs ++ [r] } := by
  cases hdec : decode w with
  | instr i =>
    obtain ⟨t, r, hexec⟩ := exec_reads_block_only i s
    refine ⟨t, r, fun es rs => ?_⟩
    simp only [step, hdec]
    exact hexec es rs
  | reject c =>
    refine ⟨s, ⟨true, errorWord (rejectCause c) (opField w)⟩, fun es rs => ?_⟩
    simp only [step, hdec]
    rfl

/-- Settles O35: by the oldest event, if there is one: a reset (`step_of_reset`) or a request (`step_of_request`). -/
theorem stepTakesOneEventAndAnswersEachRequestOnce : Obligations.StepTakesOneEventAndAnswersEachRequestOnce := by
  rintro ⟨frame, widx, inbox, responses⟩ t hstep
  match inbox with
  | [] =>
    cases hstep
    exact ⟨rfl, nofun, nofun⟩
  | .reset :: es =>
    cases hstep
    exact ⟨rfl, nofun, fun _ _ => rfl⟩
  | .request w :: es =>
    obtain ⟨u, r, hreq⟩ := step_of_request ⟨frame, widx, [], []⟩ w
    cases (hreq es responses).symm.trans hstep
    exact ⟨rfl, fun _ _ _ => ⟨r, rfl⟩, nofun⟩

/-! ## A run of events -/

/-- What a step makes of the oldest event is the same whatever events stand behind it (R24). -/
theorem step_ignores_later_events (s : State) (e : HostEvent) :
    ∃ t : State, ∀ es : List HostEvent, step { s with inbox := e :: es } = .next { t with inbox := es } := by
  cases e with
  | reset => exact ⟨s.clearFrame, step_of_reset s⟩
  | request w =>
    obtain ⟨t, r, hreq⟩ := step_of_request s w
    exact ⟨{ t with responses := s.responses ++ [r] }, fun es => hreq es s.responses⟩

/-- A run of one step more goes on from the state the first step leaves. -/
theorem runSteps_succ_of_step {n : Nat} {s t : State} (h : step s = .next t) : runSteps (n + 1) s = runSteps n t := by
  rw [runSteps, h]

/-- Settles O37, by induction on the events: each step ignores the events behind its own. -/
theorem laterEventsNeverChangeEarlierResponses : Obligations.LaterEventsNeverChangeEarlierResponses := by
  intro s es later
  induction es generalizing s with
  | nil => exact ⟨{ s with inbox := [] }, rfl, rfl⟩
  | cons e es ih =>
    obtain ⟨u, hstep⟩ := step_ignores_later_events s e
    obtain ⟨t, halone, hfollowed⟩ := ih u
    refine ⟨t, ?_, ?_⟩
    · exact (runSteps_succ_of_step (hstep es)).trans halone
    · exact (runSteps_succ_of_step (hstep (es ++ later))).trans hfollowed

end Sys2Proof.Machine
end

section
/-! PROOFS. The decoder and the encoder are each other's inverse (R25 to R28, R38, R39). -/

namespace Sys2Proof

/-! ## The operands of a word -/

/-- FRM_LOAD with a word's seven frame bytes (R21, R25). -/
def Instr.frmLoadOf (w : Word) : Instr :=
  .frmLoad (frameByteField w 0) (frameByteField w 1) (frameByteField w 2) (frameByteField w 3) (frameByteField w 4)
    (frameByteField w 5) (frameByteField w 6)

/-- The operation with its operands taken from a word, at the positions R25 gives them. -/
def Instr.withOperandsOf (w : Word) : Instr → Instr
  | .frmLoad _ _ _ _ _ _ _ => .frmLoadOf w
  | .frmPush _ => .frmPush (lowByteField w)
  | .presetLookup _ => .presetLookup (pidField w)
  | .calDerive _ _ => .calDerive (typeField w) (lowByteField w)
  | i => i

/-- A word that carries an operation's OP selects that operation, with the word's operands. -/
theorem selectOp_of_op {w : Word} {i : Instr} (h : opField w = i.op) : selectOp w = some (i.withOperandsOf w) := by
  rw [selectOp, h]
  cases i <;> rfl

/-- The decoder accepts a word as an operation exactly where OP and operands are the operation's and the reserved bits
are 0. -/
theorem decode_eq_instr_iff_fields (w : Word) (i : Instr) :
    decode w = .instr i ↔ opField w = i.op ∧ i.withOperandsOf w = i ∧ w &&& rsvMask i.op = 0#64 := by
  rw [decode_eq_instr_iff]
  constructor
  · rintro ⟨hsel, hrsv⟩
    have hop := selectOp_op hsel
    rw [selectOp_of_op hop, Option.some.injEq] at hsel
    exact ⟨hop, hsel, hop ▸ hrsv⟩
  · rintro ⟨hop, hoperands, hrsv⟩
    exact ⟨(selectOp_of_op hop).trans (congrArg some hoperands), hop.symm ▸ hrsv⟩

/-! ## Decoding an encoded operation -/

/-- The encoder puts each operand where the decoder reads it (R25, R38). -/
theorem withOperandsOf_encode (i : Instr) : i.withOperandsOf (encode i) = i := by
  cases i with
  | frmLoad b0 b1 b2 b3 b4 b5 b6 =>
    simp (disch := decide) only [Instr.withOperandsOf, Instr.frmLoadOf, encode, frmLoadWord, frameByteField,
      Nat.reduceMul, Nat.reduceSub, BitVec.extractLsb'_append_eq_of_le, BitVec.extractLsb'_append_eq_right]
  | frmPush b =>
    simp only [Instr.withOperandsOf, encode, frmPushWord, lowByteField, BitVec.extractLsb'_append_eq_right]
  | presetLookup pid =>
    simp only [Instr.withOperandsOf, encode, presetLookupWord, pidField, BitVec.extractLsb'_append_eq_right]
  | calDerive ty fs =>
    simp (disch := decide) only [Instr.withOperandsOf, encode, calDeriveWord, typeField, lowByteField, Nat.reduceSub,
      BitVec.extractLsb'_append_eq_of_le, BitVec.extractLsb'_append_eq_right]
  | _ => rfl

/-- Settles O1: an encoded word has the operation's OP and no reserved bit (`Laws.EncodedWord`), and its operands are
where the decoder reads them. -/
theorem decodeOfEncodeIsTheInstruction : Obligations.DecodeOfEncodeIsTheInstruction := by
  intro i
  obtain ⟨hop, hrsv⟩ := Laws.EncodedWord.all i
  exact (decode_eq_instr_iff_fields (encode i) i).mpr ⟨hop, withOperandsOf_encode i, hrsv⟩

/-! ## Encoding a decoded word -/

/-- An accepted word's OP and the reserved field below it, which is 0, are the word's high bits. -/
theorem op_append_zero {w : Word} {op : BitVec 4} {lo len : Nat} (hop : opField w = op)
    (hrsv : w &&& onesMask lo len = 0#64) (h : 60 = lo + len) : op ++ 0#len = w.extractLsb' lo (4 + len) := by
  rw [← hop, opField, ← (and_onesMask_eq_zero w lo len (by omega)).mp hrsv]
  exact BitVec.extractLsb'_append_extractLsb'_eq_extractLsb' h

/-- A word without a reserved bit is the encoding of the operation with its OP and its operands: OP, the reserved field
and the operands are all of its bits (R25, R27). -/
theorem encode_withOperandsOf {w : Word} {i : Instr} (hop : opField w = i.op) (hrsv : w &&& rsvMask i.op = 0#64) :
    encode (i.withOperandsOf w) = w := by
  cases i with
  | frmLoad =>
    have hhigh := op_append_zero (op := opFrmLoad) hop (rsvMask_frmLoad ▸ hrsv) rfl
    simp (disch := decide) only [Instr.withOperandsOf, Instr.frmLoadOf, encode, frmLoadWord, frameByteField, hhigh,
      BitVec.extractLsb'_append_extractLsb'_eq_extractLsb']
    exact BitVec.extractLsb'_eq_self
  | frmPush =>
    have hhigh := op_append_zero (op := opFrmPush) hop (rsvMask_frmPush ▸ hrsv) rfl
    simp (disch := decide) only [Instr.withOperandsOf, encode, frmPushWord, lowByteField, hhigh,
      BitVec.extractLsb'_append_extractLsb'_eq_extractLsb']
    exact BitVec.extractLsb'_eq_self
  | presetLookup =>
    have hhigh := op_append_zero (op := opPresetLookup) hop (rsvMask_presetLookup ▸ hrsv) rfl
    simp (disch := decide) only [Instr.withOperandsOf, encode, presetLookupWord, pidField, hhigh,
      BitVec.extractLsb'_append_extractLsb'_eq_extractLsb']
    exact BitVec.extractLsb'_eq_self
  | calDerive =>
    have hhigh := op_append_zero (op := opCalDerive) hop (rsvMask_calDerive ▸ hrsv) rfl
    simp (disch := decide) only [Instr.withOperandsOf, encode, calDeriveWord, typeField, lowByteField, hhigh,
      BitVec.extractLsb'_append_extractLsb'_eq_extractLsb']
    exact BitVec.extractLsb'_eq_self
  | _ => exact (op_append_zero (lo := 0) (len := 60) hop hrsv rfl).trans BitVec.extractLsb'_eq_self

/-- Settles O2: the operation is the one with the word's OP and operands, and the word has no reserved bit. -/
theorem encodeOfDecodeIsTheWord : Obligations.EncodeOfDecodeIsTheWord := by
  intro w i hdec
  obtain ⟨hop, hoperands, hrsv⟩ := (decode_eq_instr_iff_fields w i).mp hdec
  exact hoperands ▸ encode_withOperandsOf hop hrsv

/-- The two directions in one: the decoder accepts the encodings and nothing else. -/
theorem decode_eq_instr_iff_encode {w : Word} {i : Instr} : decode w = .instr i ↔ encode i = w :=
  ⟨encodeOfDecodeIsTheWord w i, fun h => h ▸ decodeOfEncodeIsTheInstruction i⟩

end Sys2Proof
end

section
/-! PROOFS. The decoder and the opcode table accept the same words (R26 to R28). -/

namespace Sys2Proof

/-- The row of an operation code: OP and the reserved bits are fixed, OP to the code and the reserved bits to 0. -/
def opcodeRow (op : BitVec 4) : OpcodeRow := ⟨plainWord op, onesMask 60 4 ||| rsvMask op⟩

/-- The eleven operation codes of R26. -/
def legalOps : List (BitVec 4) :=
  [opFrmLoad, opFrmPush, opFrmClear, opFrmStat, opStFields, opStCode, opPRaw, opTRaw, opDecodeAll, opPresetLookup,
    opCalDerive]

/-- The opcode table, whose rows are written out, holds the row of each legal operation code. -/
theorem opcodeTable_eq_map : opcodeTable = legalOps.map opcodeRow := by decide

/-- OP and the 60 bits below it are all of a word (R25). -/
theorem opField_append_low (w : Word) : opField w ++ w.extractLsb' 0 60 = w :=
  (BitVec.extractLsb'_append_extractLsb'_eq_extractLsb' rfl).trans BitVec.extractLsb'_eq_self

/-- Two words are equal where OP and the 60 bits below it are. -/
theorem word_eq_iff (v w : Word) : v = w ↔ opField v = opField w ∧ v.extractLsb' 0 60 = w.extractLsb' 0 60 := by
  constructor
  · rintro rfl
    exact ⟨rfl, rfl⟩
  · rintro ⟨hop, hlow⟩
    rw [← opField_append_low v, ← opField_append_low w, hop, hlow]

theorem opField_plainWord (op : BitVec 4) : opField (plainWord op) = op := BitVec.extractLsb'_append_eq_left

theorem plainWord_low (op : BitVec 4) : (plainWord op).extractLsb' 0 60 = 0#60 := BitVec.extractLsb'_append_eq_right

theorem opField_and (v w : Word) : opField (v &&& w) = opField v &&& opField w := BitVec.extractLsb'_and

/-- No OP bit is reserved (R27). -/
theorem opField_and_rsvMask (w : Word) (op : BitVec 4) : opField (w &&& rsvMask op) = 0#4 := by
  have hmask : opField (rsvMask op) = 0#4 := by
    revert op
    decide
  rw [opField_and, hmask, BitVec.and_zero]

/-- The OP bits that a row's mask selects are the word's OP. -/
theorem opField_and_rowMask (w : Word) (op : BitVec 4) :
    opField (w &&& (onesMask 60 4 ||| rsvMask op)) = opField w := by
  have hmask : opField (onesMask 60 4 ||| rsvMask op) = BitVec.allOnes 4 := by
    revert op
    decide
  rw [opField_and, hmask, BitVec.and_allOnes]

/-- Below OP a row's mask selects the reserved bits. -/
theorem and_rowMask_low (w : Word) (op : BitVec 4) :
    (w &&& (onesMask 60 4 ||| rsvMask op)).extractLsb' 0 60 = (w &&& rsvMask op).extractLsb' 0 60 := by
  have hlow : (onesMask 60 4).extractLsb' 0 60 = 0#60 := by decide
  simp only [BitVec.extractLsb'_and, BitVec.extractLsb'_or, hlow, BitVec.zero_or]

/-- A word fits the row of an operation code exactly where it carries the code and no reserved bit. -/
theorem fits_opcodeRow_iff (op : BitVec 4) (w : Word) :
    (opcodeRow op).fits w = true ↔ opField w = op ∧ w &&& rsvMask op = 0#64 := by
  have hrsv : w &&& rsvMask op = 0#64 ↔ (w &&& rsvMask op).extractLsb' 0 60 = 0#60 := by
    rw [word_eq_iff, opField_and_rsvMask]
    exact and_iff_right rfl
  rw [OpcodeRow.fits, beq_iff_eq, opcodeRow, word_eq_iff, opField_and_rowMask, and_rowMask_low, opField_plainWord,
    plainWord_low, hrsv]

/-- The check of the opcode table, by OP and the reserved bits. -/
theorem wellFormed_iff (w : Word) :
    WellFormed w = true ↔ opField w ∈ legalOps ∧ w &&& rsvMask (opField w) = 0#64 := by
  simp only [WellFormed, opcodeTable_eq_map, List.any_map, List.any_eq_true, Function.comp, fits_opcodeRow_iff]
  constructor
  · rintro ⟨op, hlegal, rfl, hrsv⟩
    exact ⟨hlegal, hrsv⟩
  · rintro ⟨hlegal, hrsv⟩
    exact ⟨_, hlegal, rfl, hrsv⟩

/-- An operation is selected exactly for the legal operation codes. -/
theorem exists_selectOp_iff (w : Word) : (∃ i, selectOp w = some i) ↔ opField w ∈ legalOps := by
  rw [← Option.isSome_iff_exists, Option.isSome_iff_ne_none, ne_eq, selectOp_eq_none_iff]
  generalize opField w = op
  revert op
  decide

/-- The decoder accepts exactly the words with a legal OP and no reserved bit (R28). -/
theorem exists_decode_iff (w : Word) :
    (∃ i, decode w = .instr i) ↔ opField w ∈ legalOps ∧ w &&& rsvMask (opField w) = 0#64 := by
  simp only [decode_eq_instr_iff, exists_and_right, exists_selectOp_iff]

/-- Settles O3: the decoder and the table ask the same of OP and the reserved bits, and a row fixes OP. -/
theorem decoderAcceptsExactlyTheOpcodeTable : Obligations.DecoderAcceptsExactlyTheOpcodeTable := by
  constructor
  · intro w
    rw [exists_decode_iff, wellFormed_iff]
  · intro w r₁ r₂ h₁ h₂ hfit₁ hfit₂
    rw [opcodeTable_eq_map] at h₁ h₂
    obtain ⟨op₁, -, rfl⟩ := List.mem_map.mp h₁
    obtain ⟨op₂, -, rfl⟩ := List.mem_map.mp h₂
    rw [← ((fits_opcodeRow_iff op₁ w).mp hfit₁).1, ← ((fits_opcodeRow_iff op₂ w).mp hfit₂).1]

end Sys2Proof
end

section
/-! PROOFS. Request words in the step: sequences of requests (R24, R38, R71), and words and lines written out (R38). -/

namespace Sys2Proof.Machine

/-! ## One request -/

/-- Settles O5: the step takes the event, then the decoder's answer picks the operation (R28). -/
theorem stepRunsTheDecodedInstruction : Obligations.StepRunsTheDecodedInstruction := by
  intro s w rest i hreq hdec
  simp only [step, hreq, hdec]
  rfl

/-- A run that begins with the request of an operation goes on from what the operation leaves. -/
theorem runSteps_of_decode {n : Nat} {s t : State} {w : Word} {rest : List HostEvent} {i : Instr}
    (hreq : s.inbox = .request w :: rest) (hdec : decode w = .instr i)
    (hexec : exec i { s with inbox := rest } = .next t) : runSteps (n + 1) s = runSteps n t :=
  runSteps_succ_of_step ((stepRunsTheDecodedInstruction s w rest i hreq hdec).trans hexec)

/-! ## frm.stream -/

/-- The FRM_STAT word that reports a write index (R34). -/
def statWordAt (v : BitVec 3) : Word := (BitVec.ofBool (v == 7#3) ++ v).setWidth 64

/-- The FRM_STAT word depends on WIDX alone (R15, R34). -/
theorem frmStatWord_eq (s : State) : frmStatWord s = statWordAt s.widx := rfl

section
variable (n : Nat) (f : Vector Byte 7) (es : List HostEvent) (rs : List Response)

/-- A run that begins with FRM_CLEAR goes on from the empty frame, with the FRM_STAT word of index 0 as
response (R42). -/
theorem runSteps_frmClear (v : BitVec 3) :
    runSteps (n + 1) ⟨f, v, .request (encode .frmClear) :: es, rs⟩ =
      runSteps n ⟨Vector.replicate 7 0#8, 0#3, es, rs ++ [⟨false, statWordAt 0#3⟩]⟩ :=
  runSteps_of_decode rfl (decodeOfEncodeIsTheInstruction _) rfl

/-- A run that begins with FRM_PUSH on an incomplete frame goes on with the byte written at the write index, and the
FRM_STAT word of the next index as response (R41). -/
theorem runSteps_frmPush (b : Byte) {v : BitVec 3} (hv : v ≠ 7#3) :
    runSteps (n + 1) ⟨f, v, .request (encode (.frmPush b)) :: es, rs⟩ =
      runSteps n ⟨f.setIfInBounds v.toNat b, v + 1#3, es, rs ++ [⟨false, statWordAt (v + 1#3)⟩]⟩ :=
  runSteps_of_decode rfl (decodeOfEncodeIsTheInstruction _) (if_neg hv)

end

/-- Settles O13: FRM_CLEAR, then seven pushes at the write indexes 0 to 6; the last `rfl` reads off the seven bytes so
written and the eight FRM_STAT words. -/
theorem streamLoadsTheFrameThatOneLoadDoes : Obligations.StreamLoadsTheFrameThatOneLoadDoes := by
  rintro b0 b1 b2 b3 b4 b5 b6 ⟨frame, widx, inbox, responses⟩ rest (rfl : inbox = _)
  refine ⟨⟨#v[b0, b1, b2, b3, b4, b5, b6], 7#3, rest, _⟩, _, ?_, rfl, rfl, rfl, rfl, rfl⟩
  simp only [asmEvents, AsmLine.words, List.flatMap_cons, List.flatMap_nil, List.append_nil, List.map_cons,
    List.map_nil, List.cons_append, List.nil_append]
  simp (disch := decide) only [runSteps_frmClear, runSteps_frmPush, BitVec.reduceAdd, List.append_assoc,
    List.cons_append, List.nil_append]
  rfl

/-! ## FRM_LOAD and DECODE_ALL -/

/-- The DECODE_ALL word by the fields that hold the frame (R37). -/
theorem decodeAllWord_fields (s : State) :
    (decodeAllWord s).extractLsb' 48 8 = s.readFrame 0 ∧ (decodeAllWord s).extractLsb' 24 24 = pRaw s ∧
      (decodeAllWord s).extractLsb' 0 24 = tRaw s := by
  simp (disch := decide) only [decodeAllWord, BitVec.extractLsb'_append_eq_of_le, Nat.reduceSub,
    BitVec.extractLsb'_append_eq_right, and_self]

/-- Bits 55:0 of a word by the fields of R37. -/
theorem operandBits_eq_append (w : Word) :
    w.extractLsb' 0 56 = w.extractLsb' 48 8 ++ w.extractLsb' 24 24 ++ w.extractLsb' 0 24 := by
  simp (disch := decide) only [BitVec.extractLsb'_append_extractLsb'_eq_extractLsb']

/-- With the frame bytes of a word in FRAME, DECODE_ALL answers bits 55:0 of the word (R37, R40). -/
theorem decodeAllWord_of_frame {s : State} {w : Word} (h : ∀ i : Fin 7, s.readFrame i = frameByteField w i) :
    (decodeAllWord s).extractLsb' 0 56 = w.extractLsb' 0 56 := by
  obtain ⟨hstatus, hpressure, htemperature⟩ := decodeAllWord_fields s
  rw [operandBits_eq_append, operandBits_eq_append w, hstatus, hpressure, htemperature, pRaw, tRaw]
  simp (disch := decide) only [h, frameByteField, BitVec.extractLsb'_append_extractLsb'_eq_extractLsb']
  rfl

/-- A word with OP 1 and reserved bits 0 loads its seven frame bytes (R25, R40). -/
theorem decode_frmLoad {w : Word} (hop : opField w = opFrmLoad) (hrsv : w.extractLsb' 56 4 = 0#4) :
    decode w = .instr (.frmLoadOf w) := by
  have hselect : selectOp w = some (.frmLoadOf w) := selectOp_of_op (i := .frmLoad 0 0 0 0 0 0 0) hop
  rw [decode_of_reserved_field hselect (hop ▸ rsvMask_frmLoad) (by decide), if_pos hrsv]

/-- FRM_LOAD with a word's frame bytes puts them in FRAME and answers WIDX 7 and COMPLETE (R21, R40). -/
theorem exec_frmLoad_of_word (w : Word) (s : State) :
    ∃ t : State, exec (.frmLoadOf w) s = .next t ∧
      (∀ i : Fin 7, t.readFrame i = frameByteField w i) ∧ t.inbox = s.inbox ∧
      t.responses = s.responses ++ [⟨false, statWordAt 7#3⟩] := by
  refine ⟨_, rfl, fun i => ?_, rfl, rfl⟩
  fin_cases i <;> rfl

/-- Settles O22: the first step puts the word's frame bytes in FRAME, the second answers them. -/
theorem decodeAllReturnsTheLoadedOperand : Obligations.DecodeAllReturnsTheLoadedOperand := by
  intro s w rest hop hrsv hinbox
  obtain ⟨t, hload, hframe, hrest, hresponses⟩ :=
    exec_frmLoad_of_word w { s with inbox := .request 0x9000000000000000#64 :: rest }
  have hdecode : exec .decodeAll { t with inbox := rest } =
      .next { t with inbox := rest, responses := t.responses ++ [⟨false, decodeAllWord t⟩] } := rfl
  have hrun := (runSteps_of_decode (n := 1) hinbox (decode_frmLoad hop hrsv) hload).trans
    (runSteps_of_decode (n := 0) hrest (decode_eq_instr_iff_encode.mpr rfl) hdecode)
  refine ⟨_, decodeAllWord t, hrun, rfl, ?_, decodeAllWord_of_frame hframe⟩
  simp only [hresponses, List.append_assoc, List.cons_append, List.nil_append]
  rfl

/-! ## Written out -/

/-- Settles O4: the six accepted words are encodings (R38); the last two have an illegal OP and a reserved bit set. -/
theorem writtenOutWordsDecodeAsTheSpecSays : Obligations.WrittenOutWordsDecodeAsTheSpecSays :=
  have accepted {w : Word} {i : Instr} (h : encode i = w) : decode w = .instr i := decode_eq_instr_iff_encode.mpr h
  ⟨accepted rfl, accepted rfl, accepted rfl, accepted rfl, accepted rfl, accepted rfl,
    (decode_eq_illegalOp_iff _).mpr rfl, (decode_eq_rsvdNonzero_iff _).mpr ⟨⟨.tRaw, rfl⟩, by decide⟩⟩

/-- Settles O40: the operands stand in the encoder's words where R38's table has them, and the words without operand
are the table's literals. -/
theorem assemblerLinesGiveTheseWords : Obligations.AssemblerLinesGiveTheseWords :=
  ⟨fun _ _ _ _ _ _ _ => rfl, fun _ => rfl, rfl, rfl, rfl, rfl, rfl, rfl, rfl, fun _ => rfl, fun _ _ => rfl,
    fun _ => rfl, fun _ _ => rfl, fun _ _ _ _ _ _ _ => rfl, rfl, fun _ => rfl⟩

end Sys2Proof.Machine
end

section
/-! PROOFS. The frame loading operations (R40 to R43). -/

namespace Sys2Proof.Machine

/-! ## Their encodings -/

/-- A word with an operation's OP, whose reserved bits are one field, decodes to that operation with the word's operands
where the field is 0, and is rejected as RSVD_NONZERO where it is not (R27, R28). -/
theorem decode_of_op {w : Word} {i : Instr} {lo len : Nat} (hop : opField w = i.op)
    (hmask : rsvMask i.op = onesMask lo len) (hfit : lo + len ≤ 64) :
    decode w = if w.extractLsb' lo len = 0#len then .instr (i.withOperandsOf w) else .reject .rsvdNonzero :=
  decode_of_reserved_field (selectOp_of_op hop) (hop ▸ hmask) hfit

/-- An operation whose OP leaves all other bits reserved has its encoding as its sole legal word. -/
theorem soleLegalWord_encode {i : Instr} (hmask : rsvMask i.op = onesMask 0 60) : SoleLegalWord (encode i) i := by
  refine ⟨decodeOfEncodeIsTheInstruction i, fun w hop hrsv => ?_⟩
  obtain ⟨hencoded, -⟩ := Laws.EncodedWord.all i
  rw [decode_of_op (hop.trans hencoded) hmask (by decide), if_neg hrsv]

/-! ## FRM_STAT -/

/-- DATA[3:0] of a FRM_STAT word is COMPLETE and the write index, so it is at most 6, or 15 (R34, R43). -/
theorem IsStatWord.low_nibble {d : Word} {v : BitVec 3} (h : IsStatWord d v) :
    (d.extractLsb' 0 4).toNat ≤ 6 ∨ (d.extractLsb' 0 4).toNat = 15 := by
  obtain ⟨hwidx, hcomplete, -⟩ := h
  have hfields : d.extractLsb' 0 4 = (if v = 7#3 then 1#1 else 0#1) ++ v := by
    rw [← hcomplete, ← hwidx]
    exact (BitVec.extractLsb'_append_extractLsb'_eq_extractLsb' (len₁ := 3) (len₂ := 1) rfl).symm
  rw [hfields]
  generalize v = u
  revert u
  decide

/-- Settles O11: the response is the FRM_STAT word, whose fields are WIDX and COMPLETE, and nothing else changes. -/
theorem frmStatReportsTheWriteIndex : Obligations.FrmStatReportsTheWriteIndex :=
  ⟨fun s => ⟨frmStatWord s, (respondStat_eq_next_iff s _).mpr rfl, frmStatWord_fields s,
    (frmStatWord_fields s).low_nibble⟩, soleLegalWord_encode (i := .frmStat) rsvMask_frmStat⟩

/-- The FRM_STAT word at WIDX 0 (R34, R42). -/
theorem frmStatWord_of_empty {s : State} (h : s.widx = 0#3) : frmStatWord s = 0#64 := by
  rw [frmStatWord_eq, h]
  rfl

/-- The FRM_STAT word at WIDX 7 (R34, R40). -/
theorem frmStatWord_of_complete {s : State} (h : s.widx = 7#3) : frmStatWord s = 0xF#64 := by
  rw [frmStatWord_eq, h]
  rfl

/-! ## FRM_CLEAR -/

/-- With status byte 8'h00 in FRAME, ST_CODE answers NoPower (R44, R46). -/
theorem exec_stCode_of_zero {s : State} (h : s.readFrame 0 = 0#8) :
    exec .stCode s = .next { s with responses := s.responses ++ [⟨false, 2#64⟩] } := by
  rw [exec, execStCode, h, stCodeWord_zero, respond_eq_next_iff]

/-- FRM_CLEAR empties the frame and answers 64'h0 (R42). -/
theorem exec_frmClear (s : State) :
    exec .frmClear s = .next { s.clearFrame with responses := s.responses ++ [⟨false, 0#64⟩] } := by
  rw [exec, execFrmClear, respondStat_eq_next_iff, frmStatWord_of_empty s.clearFrame_widx, State.clearFrame_responses]

/-- Settles O10: what FRM_CLEAR leaves has every FRAME byte 8'h00, F[0] included. -/
theorem frmClearEmptiesTheFrame : Obligations.FrmClearEmptiesTheFrame :=
  ⟨fun s => ⟨_, exec_frmClear s, rfl, rfl, rfl, exec_stCode_of_zero rfl⟩,
    soleLegalWord_encode (i := .frmClear) rsvMask_frmClear⟩

/-! ## FRM_PUSH -/

/-- FRAME and WIDX with a byte pushed: the byte at the write index, the index one up (R41). -/
def State.push (s : State) (b : Byte) : State := (s.writeFrame s.widx.toNat b).setWidx (s.widx + 1#3)

/-- A byte of FRAME after a push. -/
theorem State.push_frame (s : State) (b : Byte) (i : Fin 7) :
    (s.push b).frame[i] = if i.val = s.widx.toNat then b else s.frame[i] := by
  simp only [eq_comm (a := i.val)]
  exact s.readFrame_writeFrame s.widx.toNat b i

/-- Below 7 the write index goes up without a wrap. -/
theorem State.push_widx {s : State} (h : s.widx ≠ 7#3) (b : Byte) :
    (s.push b).widx.toNat = s.widx.toNat + 1 := by
  rw [State.push, State.setWidx_widx]
  bv_omega

/-- A push keeps the bytes that are not yet pushed 8'h00 (R67): it writes below the new write index only. -/
theorem State.push_zeroTail {s : State} (h : s.widx ≠ 7#3) (b : Byte) (htail : ZeroTail s) : ZeroTail (s.push b) := by
  intro i hi
  rw [State.push_widx h] at hi
  rw [State.push_frame, if_neg (by omega)]
  exact htail i (by omega)

/-- FRM_PUSH on an incomplete frame pushes its byte and answers the FRM_STAT word of what it leaves (R41). -/
theorem exec_frmPush_of_incomplete {s : State} (h : s.widx ≠ 7#3) (b : Byte) :
    exec (.frmPush b) s =
      .next { s.push b with responses := s.responses ++ [⟨false, frmStatWord (s.push b)⟩] } :=
  (if_neg h).trans ((respondStat_eq_next_iff (s.push b) _).mpr rfl)

/-- FRM_PUSH on a complete frame is refused with FRAME_OVERRUN and writes nothing (R41, R56). -/
theorem exec_frmPush_of_complete {s : State} (h : s.widx = 7#3) (b : Byte) :
    exec (.frmPush b) s = .next { s with responses := s.responses ++ [⟨true, 0x23#64⟩] } :=
  (if_pos h).trans ((raiseErr_eq_next_iff .frameOverrun opFrmPush s _).mpr rfl)

/-- Settles O9: by whether the frame is complete, then by the reserved field of the word. -/
theorem frmPushAppendsOneByteOrOverruns : Obligations.FrmPushAppendsOneByteOrOverruns := by
  have hdecode {w : Word} (hop : w.extractLsb' 60 4 = 0x2#4) :=
    decode_of_op (i := .frmPush 0#8) hop rsvMask_frmPush (by decide)
  refine ⟨fun b s h => ?_, fun b s h => exec_frmPush_of_complete h b, ?_, ?_⟩
  · exact ⟨_, _, exec_frmPush_of_incomplete h b, s.push_frame b, State.push_widx h b, rfl, rfl,
      frmStatWord_fields (s.push b), State.push_zeroTail h b⟩
  · exact fun w hop hrsv => (hdecode hop).trans (if_pos hrsv)
  · exact fun w hop hrsv => (hdecode hop).trans (if_neg hrsv)

/-! ## FRM_LOAD -/

/-- FRM_LOAD puts its seven bytes in FRAME, sets WIDX to 7 and answers 64'hF (R40). -/
theorem exec_frmLoad (b0 b1 b2 b3 b4 b5 b6 : Byte) (s : State) :
    exec (.frmLoad b0 b1 b2 b3 b4 b5 b6) s =
      .next { s with frame := #v[b0, b1, b2, b3, b4, b5, b6], widx := 7#3,
                     responses := s.responses ++ [⟨false, 0xF#64⟩] } := by
  rw [exec, execFrmLoad, respondStat_eq_next_iff, frmStatWord_of_complete (State.setWidx_widx _ _)]
  rfl

/-- Settles O8: FRM_LOAD leaves a complete frame, and a complete frame takes no push. -/
theorem frmLoadWritesTheWholeFrame : Obligations.FrmLoadWritesTheWholeFrame := by
  refine ⟨fun b0 b1 b2 b3 b4 b5 b6 s => ?_, fun w => decode_frmLoad, fun w hop hrsv => ?_⟩
  · exact ⟨_, exec_frmLoad b0 b1 b2 b3 b4 b5 b6 s, rfl, exec_frmPush_of_complete rfl⟩
  · exact (decode_of_op (i := .frmLoad 0 0 0 0 0 0 0) hop rsvMask_frmLoad (by decide)).trans (if_neg hrsv)

end Sys2Proof.Machine
end

section
/-! PROOFS. The status-bit extractor (R44 to R47). -/

namespace Sys2Proof.Machine

/-! ## One bit as a field -/

/-- A bit is set exactly where the field of that one bit is 1. -/
theorem getLsbD_eq_true_iff {n : Nat} (v : BitVec n) (i : Nat) : v.getLsbD i = true ↔ v.extractLsb' i 1 = 1#1 := by
  rw [BitVec.getLsbD_eq_extractLsb', beq_iff_eq]

/-- A bit is clear exactly where the field of that one bit is 0. -/
theorem getLsbD_eq_false_iff {n : Nat} (v : BitVec n) (i : Nat) : v.getLsbD i = false ↔ v.extractLsb' i 1 = 0#1 := by
  rw [← Bool.not_eq_true, getLsbD_eq_true_iff]
  generalize v.extractLsb' i 1 = bit
  revert bit
  decide

/-- Two words agree on a bit each where they agree on the fields of those bits. -/
theorem getLsbD_eq_of_field {n m i j : Nat} {v : BitVec n} {w : BitVec m}
    (h : v.extractLsb' i 1 = w.extractLsb' j 1) : v.getLsbD i = w.getLsbD j := by
  rw [BitVec.getLsbD_eq_extractLsb', BitVec.getLsbD_eq_extractLsb', h]

/-! ## The status code -/

/-- The code of a status byte by its bits, first match wins (R31, R44): one case per branch of `statusCode`. -/
theorem statusCode_code (s : Byte) :
    (statusCode s).code =
      if s.getLsbD 6 = false then 2#3
      else if s.getLsbD 5 = true then 1#3
      else if s.getLsbD 2 = true then 4#3
      else if s.getLsbD 0 = true then 3#3
      else if s.extractLsb' 3 2 = 0#2 then 0#3
      else 5#3 := by
  have hpwr : s.getLsbD 6 = false ↔ statusPwr s = 0#1 := getLsbD_eq_false_iff s 6
  have hbsy : s.getLsbD 5 = true ↔ statusBsy s = 1#1 := getLsbD_eq_true_iff s 5
  have hmem : s.getLsbD 2 = true ↔ statusMem s = 1#1 := getLsbD_eq_true_iff s 2
  have halu : s.getLsbD 0 = true ↔ statusAlu s = 1#1 := getLsbD_eq_true_iff s 0
  have hmode : s.extractLsb' 3 2 = statusMode s := rfl
  simp only [statusCode, hpwr, hbsy, hmem, halu, hmode]
  split_ifs <;> rfl

/-- Flipping bits that belong to none of the five sub-fields R44 reads keeps the status code. -/
theorem statusCode_xor {m : Byte} (hpwr : statusPwr m = 0#1) (hbsy : statusBsy m = 0#1) (hmem : statusMem m = 0#1)
    (halu : statusAlu m = 0#1) (hmode : statusMode m = 0#2) (s : Byte) : statusCode (s ^^^ m) = statusCode s := by
  have keeps {i len : Nat} (h : m.extractLsb' i len = 0#len) : (s ^^^ m).extractLsb' i len = s.extractLsb' i len := by
    rw [BitVec.extractLsb'_xor, h, BitVec.xor_zero]
  rw [statusCode, statusPwr, statusBsy, statusMem, statusAlu, statusMode, keeps hpwr, keeps hbsy, keeps hmem,
    keeps halu, keeps hmode]
  rfl

/-- Settles O14: RSV7 and RSV1 are none of the sub-fields the code is computed from; the counts and the bytes of Ok are
read off the table of the 256 bytes. -/
theorem statusCodeFollowsThePrecedence : Obligations.StatusCodeFollowsThePrecedence := by
  refine ⟨statusCode_code, fun s => ⟨?_, ?_⟩, rfl, ?_⟩
  · exact statusCode_xor rfl rfl rfl rfl rfl s
  · exact statusCode_xor rfl rfl rfl rfl rfl s
  · decide

/-- Every status code lies from 0 to 5 (R31). -/
theorem StatusCode.code_le (c : StatusCode) : c.code.toNat ≤ 5 := by cases c <;> decide

/-! ## ST_FIELDS -/

/-- The ST_FIELDS word by its fields below bit 16 (R35). -/
theorem stFieldsWord_fields (b : Byte) :
    (stFieldsWord b).extractLsb' 0 1 = statusPwr b ∧ (stFieldsWord b).extractLsb' 1 1 = statusBsy b ∧
      (stFieldsWord b).extractLsb' 2 2 = statusMode b ∧ (stFieldsWord b).extractLsb' 4 1 = statusMem b ∧
      (stFieldsWord b).extractLsb' 5 1 = statusAlu b ∧ (stFieldsWord b).extractLsb' 6 1 = statusRsv1 b ∧
      (stFieldsWord b).extractLsb' 7 1 = statusRsv7 b ∧ (stFieldsWord b).extractLsb' 8 8 = b := by
  simp (disch := decide) only [stFieldsWord, BitVec.extractLsb'_setWidth_of_le, BitVec.extractLsb'_append_eq_of_le,
    Nat.reduceSub, BitVec.extractLsb'_append_eq_right, and_self, BitVec.extractLsb'_eq_self]

/-- The ST_FIELDS word is 0 from bit 16 up (R35). -/
theorem stFieldsWord_high (b : Byte) : (stFieldsWord b).extractLsb' 16 48 = 0#48 := by
  rw [stFieldsWord, BitVec.setWidth_eq_append (by decide), BitVec.extractLsb'_cast]
  exact BitVec.extractLsb'_append_eq_left

/-- ST_FIELDS answers the ST_FIELDS word of F[0] (R45). -/
theorem exec_stFields (s : State) :
    exec .stFields s = .next { s with responses := s.responses ++ [⟨false, stFieldsWord (s.readFrame 0)⟩] } :=
  (respond_eq_next_iff _ s _).mpr rfl

/-- Settles O15: the response is the ST_FIELDS word, whose fields are the sub-fields of F[0]. -/
theorem stFieldsReturnsTheSubFields : Obligations.StFieldsReturnsTheSubFields := by
  refine ⟨fun s => ?_, soleLegalWord_encode (i := .stFields) rsvMask_stFields⟩
  obtain ⟨hpwr, hbsy, hmode, hmem, halu, hrsv1, hrsv7, hbyte⟩ := stFieldsWord_fields (s.readFrame 0)
  exact ⟨_, exec_stFields s, getLsbD_eq_of_field hpwr, getLsbD_eq_of_field hbsy, hmode, getLsbD_eq_of_field hmem,
    getLsbD_eq_of_field halu, getLsbD_eq_of_field hrsv1, getLsbD_eq_of_field hrsv7, hbyte, stFieldsWord_high _⟩

/-! ## ST_CODE -/

/-- DATA[2:0] of the ST_CODE word is the code (R46). -/
theorem stCodeWord_code (b : Byte) : (stCodeWord b).extractLsb' 0 3 = (statusCode b).code := by
  rw [stCodeWord, BitVec.extractLsb'_setWidth_of_le (by decide), BitVec.extractLsb'_eq_self]

/-- The ST_CODE word is at most 5 (R46). -/
theorem stCodeWord_le (b : Byte) : (stCodeWord b).toNat ≤ 5 := by
  rw [stCodeWord, BitVec.toNat_setWidth_of_le (by decide)]
  exact (statusCode b).code_le

/-- ST_CODE answers the ST_CODE word of F[0] (R46). -/
theorem exec_stCode (s : State) :
    exec .stCode s = .next { s with responses := s.responses ++ [⟨false, stCodeWord (s.readFrame 0)⟩] } :=
  (respond_eq_next_iff _ s _).mpr rfl

/-- Settles O16: the response is the ST_CODE word of F[0], and F[0] is 8'h00 after reset and FRM_CLEAR. -/
theorem stCodeReturnsTheStatusCode : Obligations.StCodeReturnsTheStatusCode :=
  ⟨fun s => ⟨_, exec_stCode s, stCodeWord_code _, stCodeWord_le _⟩, exec_stCode_of_zero (State.reset_readFrame 0),
    fun s => ⟨_, exec_frmClear s, exec_stCode_of_zero rfl⟩, soleLegalWord_encode (i := .stCode) rsvMask_stCode⟩

/-! ## A status code is no error -/

/-- The DECODE_ALL word by the field that holds the status code (R37). -/
theorem decodeAllWord_code (s : State) :
    (decodeAllWord s).extractLsb' 56 3 = (statusCode (s.readFrame 0)).code := by
  simp (disch := decide) only [decodeAllWord, BitVec.extractLsb'_append_eq_of_le, Nat.reduceSub,
    BitVec.extractLsb'_append_eq_right]

/-- DECODE_ALL answers the DECODE_ALL word (R51). -/
theorem exec_decodeAll (s : State) :
    exec .decodeAll s = .next { s with responses := s.responses ++ [⟨false, decodeAllWord s⟩] } :=
  (respond_eq_next_iff _ s _).mpr rfl

/-- The outcome `o` is a next state with one response more than `s`, and that response has this ERR (R29). -/
def AnswersWithErr (s : State) (o : Outcome) (err : Bool) : Prop :=
  ∃ (d : Word) (t : State), o = .next t ∧ t.responses = s.responses ++ [⟨err, d⟩]

/-- `respond` answers without an error (R29). -/
theorem answersWithErr_respond (d : Word) (s : State) : AnswersWithErr s (respond d s) false := ⟨d, _, rfl, rfl⟩

/-- `raiseErr` answers with an error (R56). -/
theorem answersWithErr_raiseErr (c : Cause) (op : BitVec 4) (s : State) : AnswersWithErr s (raiseErr c op s) true :=
  ⟨_, _, rfl, rfl⟩

/-- Whether an operation answers an error is settled by its operands and WIDX, so no byte of FRAME changes it (R57). -/
theorem exec_err_of_widx (i : Instr) (v : BitVec 3) :
    ∃ err : Bool, ∀ s : State, s.widx = v → AnswersWithErr s (exec i s) err := by
  cases i with
  | frmPush b =>
    by_cases h : v = 7#3
    · exact ⟨true, fun s hs => ⟨_, _, exec_frmPush_of_complete (hs.trans h) b, rfl⟩⟩
    · exact ⟨false, fun s hs => ⟨_, _, exec_frmPush_of_incomplete (hs ▸ h) b, rfl⟩⟩
  | presetLookup pid =>
    simp only [exec, execPresetLookup]
    cases rom pid with
    | none => exact ⟨true, fun s _ => answersWithErr_raiseErr _ _ s⟩
    | some e => exact ⟨false, fun s _ => answersWithErr_respond _ s⟩
  | calDerive ty fs =>
    simp only [exec, execCalDerive]
    cases sensorTypeOf ty with
    | none => exact ⟨true, fun s _ => answersWithErr_raiseErr _ _ s⟩
    | some t => exact ⟨false, fun s _ => answersWithErr_respond _ s⟩
  | _ => exact ⟨false, fun s _ => ⟨_, _, rfl, rfl⟩⟩

/-- Whether a request word is answered with an error is settled by the word and WIDX (R57). -/
theorem step_err_of_widx (w : Word) (v : BitVec 3) :
    ∃ err : Bool, ∀ (s : State) (rest : List HostEvent), s.inbox = .request w :: rest → s.widx = v →
      AnswersWithErr s (step s) err := by
  cases hdec : decode w with
  | instr i =>
    obtain ⟨err, herr⟩ := exec_err_of_widx i v
    refine ⟨err, fun s rest hreq hwidx => ?_⟩
    rw [stepRunsTheDecodedInstruction s w rest i hreq hdec]
    exact herr { s with inbox := rest } hwidx
  | reject r =>
    refine ⟨true, fun s rest hreq _ => ?_⟩
    simp only [step, hreq, hdec]
    exact answersWithErr_raiseErr _ _ (s.setInbox rest)

/-- Settles O17: both operations answer with `respond`; and ERR is settled by the word and WIDX, which another byte in
F[0] leaves as they are. -/
theorem statusCodeOtherThanOkIsNoError : Obligations.StatusCodeOtherThanOkIsNoError := by
  refine ⟨fun s => ?_, fun s w rest b hreq => ?_⟩
  · exact ⟨_, _, exec_stCode s, exec_decodeAll s, stCodeWord_code _, decodeAllWord_code s⟩
  · obtain ⟨err, herr⟩ := step_err_of_widx w s.widx
    obtain ⟨d, t, hstep, hresponses⟩ := herr s rest hreq rfl
    obtain ⟨e, u, hstep', hresponses'⟩ := herr { s with frame := s.frame.set 0 b } rest hreq rfl
    exact ⟨err, d, e, t, u, hstep, hresponses, hstep', hresponses'⟩

end Sys2Proof.Machine
end

section
/-! PROOFS. The 24-bit big-endian unpacker (R48 to R51). -/

namespace Sys2Proof.Machine

/-! ## The raw fields -/

/-- A concatenation as a number, the low part taking no carry. -/
theorem toNat_append_eq_add {m n : Nat} (hi : BitVec m) (lo : BitVec n) :
    (hi ++ lo).toNat = hi.toNat * 2 ^ n + lo.toNat := by
  rw [BitVec.toNat_append, ← Nat.shiftLeft_add_eq_or_of_lt lo.isLt, Nat.shiftLeft_eq]

/-- Three concatenated bytes are their big-endian number (R48). -/
theorem toNat_append_bytes (a b c : Byte) : (a ++ b ++ c).toNat = a.toNat * 65536 + b.toNat * 256 + c.toNat := by
  rw [toNat_append_eq_add, toNat_append_eq_add]
  omega

/-- Three concatenated bytes are the or of the shifted bytes (R48). -/
theorem append_bytes_eq_or (a b c : Byte) :
    a ++ b ++ c = a.setWidth 24 <<< 16 ||| b.setWidth 24 <<< 8 ||| c.setWidth 24 :=
  (BitVec.setWidth_eq (a ++ b ++ c)).symm.trans BitVec.setWidth_append_append_eq_shiftLeft_setWidth_or

/-- Three concatenated bytes by their fields, the first highest (R48). -/
theorem append_bytes_fields (a b c : Byte) :
    (a ++ b ++ c).extractLsb' 16 8 = a ∧ (a ++ b ++ c).extractLsb' 8 8 = b ∧ (a ++ b ++ c).extractLsb' 0 8 = c := by
  simp (disch := decide) only [BitVec.extractLsb'_append_eq_of_le, BitVec.extractLsb'_append_eq_right,
    BitVec.extractLsb'_eq_self, Nat.reduceSub, and_self]

/-- The raw pressure as a number (R48). -/
theorem pRaw_toNat (s : State) :
    (pRaw s).toNat = s.frame[1].toNat * 65536 + s.frame[2].toNat * 256 + s.frame[3].toNat :=
  toNat_append_bytes _ _ _

/-- The raw temperature as a number (R48). -/
theorem tRaw_toNat (s : State) :
    (tRaw s).toNat = s.frame[4].toNat * 65536 + s.frame[5].toNat * 256 + s.frame[6].toNat :=
  toNat_append_bytes _ _ _

/-- Settles O18: each raw field is a concatenation of three bytes, and such a concatenation is the or and the sum. -/
theorem rawFieldsAreBigEndian : Obligations.RawFieldsAreBigEndian := fun s =>
  ⟨append_bytes_eq_or _ _ _, append_bytes_eq_or _ _ _, rfl, rfl, pRaw_toNat s, tRaw_toNat s⟩

/-! ## P_RAW and T_RAW -/

/-- P_RAW answers the zero-extended raw pressure (R49). -/
theorem exec_pRaw (s : State) :
    exec .pRaw s = .next { s with responses := s.responses ++ [⟨false, (pRaw s).setWidth 64⟩] } :=
  (respond_eq_next_iff _ s _).mpr rfl

/-- T_RAW answers the zero-extended raw temperature (R50). -/
theorem exec_tRaw (s : State) :
    exec .tRaw s = .next { s with responses := s.responses ++ [⟨false, (tRaw s).setWidth 64⟩] } :=
  (respond_eq_next_iff _ s _).mpr rfl

section
variable (v : BitVec 24)

/-- A 24-bit field in a DATA word keeps its number. -/
theorem fieldWord_toNat : (v.setWidth 64).toNat = v.toNat := BitVec.toNat_setWidth_of_le (by decide)

/-- DATA[63:24] is 0 above a 24-bit field (R49, R50). -/
theorem fieldWord_high : (v.setWidth 64).extractLsb' 24 40 = 0#40 := by
  rw [BitVec.setWidth_eq_append (by decide), BitVec.extractLsb'_cast]
  exact BitVec.extractLsb'_append_eq_left

/-- DATA[23:0] is the 24-bit field (R49, R50). -/
theorem fieldWord_low : (v.setWidth 64).extractLsb' 0 24 = v := by
  rw [BitVec.extractLsb'_setWidth_of_le (by decide), BitVec.extractLsb'_eq_self]

end

/-- Settles O19: the response is the zero-extended raw pressure. -/
theorem pRawReturnsTheRawPressure : Obligations.PRawReturnsTheRawPressure :=
  ⟨fun s => ⟨_, exec_pRaw s, (fieldWord_toNat _).trans (pRaw_toNat s), fieldWord_high _⟩,
    soleLegalWord_encode (i := .pRaw) rsvMask_pRaw⟩

/-- Settles O20: the response is the zero-extended raw temperature, whose bytes are all 8'h00 after reset (O27). -/
theorem tRawReturnsTheRawTemperature : Obligations.TRawReturnsTheRawTemperature := by
  obtain ⟨-, -, -, -, -, hreset⟩ := resetLeavesTheEmptyFrame
  exact ⟨fun s => ⟨_, exec_tRaw s, (fieldWord_toNat _).trans (tRaw_toNat s), fieldWord_high _⟩, hreset,
    soleLegalWord_encode (i := .tRaw) rsvMask_tRaw⟩

/-! ## DECODE_ALL -/

/-- DATA[63:59] of the DECODE_ALL word is 0 (R37). -/
theorem decodeAllWord_high (s : State) : (decodeAllWord s).extractLsb' 59 5 = 0#5 := by
  simp (disch := decide) only [decodeAllWord, BitVec.extractLsb'_append_eq_of_le, Nat.reduceSub,
    BitVec.extractLsb'_eq_self]

/-- The bytes of a raw pressure stand in the DECODE_ALL word from DATA[24] up (R37). -/
theorem decodeAllWord_pressureByte (s : State) {k : Nat} (h : k + 8 ≤ 24) :
    (decodeAllWord s).extractLsb' (24 + k) 8 = (pRaw s).extractLsb' k 8 := by
  rw [decodeAllWord, BitVec.extractLsb'_append_eq_of_le (Nat.le_add_right 24 k), Nat.add_sub_cancel_left,
    BitVec.extractLsb'_append_eq_of_add_le h]

/-- The bytes of a raw temperature stand in the DECODE_ALL word from DATA[0] up (R37). -/
theorem decodeAllWord_temperatureByte (s : State) {k : Nat} (h : k + 8 ≤ 24) :
    (decodeAllWord s).extractLsb' k 8 = (tRaw s).extractLsb' k 8 :=
  BitVec.extractLsb'_append_eq_of_add_le h

/-- Frame byte i stands at DATA[55-8i : 48-8i] of the DECODE_ALL word, where FRM_LOAD's operand has it (R21, R37): F[0]
in a field of its own, F[1] to F[3] in the raw pressure, F[4] to F[6] in the raw temperature. -/
theorem decodeAllWord_frameByte (s : State) (i : Fin 7) : frameByteField (decodeAllWord s) i = s.readFrame i := by
  obtain ⟨hstatus, -, -⟩ := decodeAllWord_fields s
  obtain ⟨h1, h2, h3⟩ := append_bytes_fields (s.readFrame 1) (s.readFrame 2) (s.readFrame 3)
  obtain ⟨h4, h5, h6⟩ := append_bytes_fields (s.readFrame 4) (s.readFrame 5) (s.readFrame 6)
  match i with
  | 0 => exact hstatus
  | 1 => exact (decodeAllWord_pressureByte s (k := 16) (by decide)).trans h1
  | 2 => exact (decodeAllWord_pressureByte s (k := 8) (by decide)).trans h2
  | 3 => exact (decodeAllWord_pressureByte s (k := 0) (by decide)).trans h3
  | 4 => exact (decodeAllWord_temperatureByte s (k := 16) (by decide)).trans h4
  | 5 => exact (decodeAllWord_temperatureByte s (k := 8) (by decide)).trans h5
  | 6 => exact (decodeAllWord_temperatureByte s (k := 0) (by decide)).trans h6

/-- The DECODE_ALL word after reset: NoPower above an empty frame (R18, R51). -/
theorem decodeAllWord_reset : decodeAllWord State.reset = 0x0200000000000000#64 := by
  simp only [decodeAllWord, State.reset_readFrame, pRaw_reset, tRaw_reset]
  rfl

/-- Settles O21: the fields of the DECODE_ALL word, each beside the answer of the operation that returns it alone. -/
theorem decodeAllJoinsTheDecodes : Obligations.DecodeAllJoinsTheDecodes := by
  refine ⟨fun s => ?_, ?_, soleLegalWord_encode (i := .decodeAll) rsvMask_decodeAll⟩
  · obtain ⟨-, hpressure, htemperature⟩ := decodeAllWord_fields s
    exact ⟨_, _, _, _, exec_decodeAll s, exec_stCode s, exec_pRaw s, exec_tRaw s, decodeAllWord_high s,
      (decodeAllWord_code s).trans (stCodeWord_code _).symm, decodeAllWord_frameByte s,
      hpressure.trans (fieldWord_low _).symm, htemperature.trans (fieldWord_low _).symm⟩
  · rw [exec_decodeAll, decodeAllWord_reset]
    rfl

end Sys2Proof.Machine
end

section
/-! PROOFS. The sensor-variant configuration table (R52 to R55). -/

namespace Sys2Proof.Machine

/-! ## The calibration -/

/-- A full scale fits the 16-bit range (R52). -/
theorem rangeOfScale_toNat (fs : Byte) : (fs.setWidth 16).toNat = fs.toNat := BitVec.toNat_setWidth_of_le (by decide)

/-- The doubled full scale of a Differential sensor fits the 16-bit range, so no carry is lost (R52). -/
theorem pressureRange_differential_toNat (fs : Byte) : (pressureRange .differential fs).toNat = fs.toNat * 2 := by
  have hfs : fs.toNat < 256 := fs.isLt
  rw [pressureRange, BitVec.toNat_shiftLeft, rangeOfScale_toNat, Nat.shiftLeft_eq, pow_one]
  exact Nat.mod_eq_of_lt (by omega)

/-- The calibration word of a Differential sensor (R36, R52). -/
theorem calibWord_differential (fs : Byte) :
    IsCalibWord (calibWord .differential fs) fs 1#2 8192 (fs.toNat * 2) :=
  pressureRange_differential_toNat fs ▸ calibWord_fields .differential fs

/-- The calibration word of a sensor that is not Differential: the full scale is the range (R36, R52). -/
theorem calibWord_of_ne_differential {t : SensorType} (h : t ≠ .differential) (fs : Byte) :
    IsCalibWord (calibWord t fs) fs t.bits 1638 fs.toNat := by
  cases t with
  | differential => exact absurd rfl h
  | gage => exact rangeOfScale_toNat fs ▸ calibWord_fields .gage fs
  | absolute => exact rangeOfScale_toNat fs ▸ calibWord_fields .absolute fs

/-- Settles O23: one calibration word per sensor type; a full scale is at most 255, so its double is at most 510. -/
theorem calibrationFollowsTheSensorType : Obligations.CalibrationFollowsTheSensorType := by
  intro fs
  have hfs : fs.toNat < 256 := fs.isLt
  exact ⟨calibWord_of_ne_differential (t := .gage) nofun fs, calibWord_of_ne_differential (t := .absolute) nofun fs,
    calibWord_differential fs, by omega, fun _ => rfl⟩

/-! ## The preset table -/

/-- The seven preset full scales in whole PSI, in the order of R33. -/
def presetScales : List Nat := [1, 2, 5, 10, 20, 30, 60]

/-- The sensor type that PID[3] names (R33). -/
def presetType (pid : BitVec 4) : SensorType := if pid.getLsbD 3 then .differential else .gage

/-- PID[3] is 0 for Gage (R33). -/
theorem presetType_of_bit_clear {pid : BitVec 4} (h : pid.getLsbD 3 = false) : presetType pid = .gage :=
  if_neg (ne_true_of_eq_false h)

/-- PID[3] is 1 for Differential (R33). -/
theorem presetType_of_bit_set {pid : BitVec 4} (h : pid.getLsbD 3 = true) : presetType pid = .differential := if_pos h

/-- The ROM by the fields of R33: PID[2:0] picks the full scale, PID[3] the type, and an id whose low three bits pick
no scale has no entry. -/
theorem rom_eq_map (pid : BitVec 4) :
    rom pid = presetScales[(pid.extractLsb' 0 3).toNat]?.map fun fs => ⟨presetType pid, BitVec.ofNat 8 fs⟩ := by
  revert pid
  decide

/-- Only the ids whose low three bits are 7 pick no scale (R33). -/
theorem exists_presetScale {k : BitVec 3} (h : k ≠ 7#3) : ∃ fs, presetScales[k.toNat]? = some fs := by
  have hlt : k.toNat < presetScales.length := by
    change k.toNat < 7
    bv_omega
  exact ⟨_, List.getElem?_eq_getElem hlt⟩

/-- A preset scale is a byte: as an FS field it keeps its number (R33, R36). -/
theorem toNat_ofNat_of_mem_presetScales {fs : Nat} (h : fs ∈ presetScales) : (BitVec.ofNat 8 fs).toNat = fs := by
  have hall : ∀ n ∈ presetScales, (BitVec.ofNat 8 n).toNat = n := by decide
  exact hall fs h

/-- No entry of the ROM is of type Absolute (R53). -/
theorem ty_ne_absolute_of_rom {pid : BitVec 4} {e : Preset} (h : rom pid = some e) : e.ty ≠ .absolute := by
  rw [rom_eq_map, Option.map_eq_some_iff] at h
  obtain ⟨fs, -, rfl⟩ := h
  rw [presetType]
  split <;> nofun

/-- Settles O24: the sixteen rows and the names are read off the table; an entry's type is the one PID[3] names. -/
theorem presetTableHasTheseEntries : Obligations.PresetTableHasTheseEntries :=
  ⟨by decide, rfl, fun _ _ => ty_ne_absolute_of_rom⟩

/-! ## PRESET_LOOKUP -/

/-- PRESET_LOOKUP of an id with an entry answers the entry's calibration word (R54). -/
theorem exec_presetLookup_of_some {pid : BitVec 4} {e : Preset} (h : rom pid = some e) (s : State) :
    exec (.presetLookup pid) s = .next { s with responses := s.responses ++ [⟨false, calibWord e.ty e.fs⟩] } := by
  rw [exec, execPresetLookup, h]
  exact (respond_eq_next_iff _ s _).mpr rfl

/-- PRESET_LOOKUP of an id without an entry is refused with PRESET_INVALID (R54, R56). -/
theorem exec_presetLookup_of_none {pid : BitVec 4} (h : rom pid = none) (s : State) :
    exec (.presetLookup pid) s = .next { s with responses := s.responses ++ [⟨true, 0xA4#64⟩] } := by
  rw [exec, execPresetLookup, h]
  exact (raiseErr_eq_next_iff .presetInvalid opPresetLookup s _).mpr rfl

/-- Settles O25: by whether PID[2:0] picks a scale, the type then by PID[3]; then by the reserved field of the word. -/
theorem presetLookupReturnsTheCalibration : Obligations.PresetLookupReturnsTheCalibration := by
  have hdecode {w : Word} (hop : w.extractLsb' 60 4 = 0xA#4) :=
    decode_of_op (i := .presetLookup 0#4) hop rsvMask_presetLookup (by decide)
  refine ⟨fun pid hlow => ?_, fun pid s hlow => ?_, ?_, ?_⟩
  · obtain ⟨fs, hscale⟩ := exists_presetScale hlow
    have hrom : rom pid = some ⟨presetType pid, BitVec.ofNat 8 fs⟩ := by rw [rom_eq_map, hscale, Option.map_some]
    have hfs := toNat_ofNat_of_mem_presetScales (List.mem_of_getElem? hscale)
    refine ⟨_, fs, hscale, fun hgage => ?_, fun hdifferential => ?_, exec_presetLookup_of_some hrom⟩
    · simpa only [presetType_of_bit_clear hgage, hfs, SensorType.bits] using
        calibWord_of_ne_differential (t := .gage) nofun (BitVec.ofNat 8 fs)
    · simpa only [presetType_of_bit_set hdifferential, hfs] using calibWord_differential (BitVec.ofNat 8 fs)
  · have hrom : rom pid = none := by
      rw [rom_eq_map, hlow]
      rfl
    exact exec_presetLookup_of_none hrom s
  · exact fun w hop hrsv => (hdecode hop).trans (if_pos hrsv)
  · exact fun w hop hrsv => (hdecode hop).trans (if_neg hrsv)

/-! ## CAL_DERIVE -/

/-- A type's bits name that type (R32). -/
theorem sensorTypeOf_bits (t : SensorType) : sensorTypeOf t.bits = some t := by cases t <;> rfl

/-- Two types with the same bits are the same (R32). -/
theorem SensorType.bits_injective : Function.Injective SensorType.bits := fun t u h =>
  Option.some.inj ((sensorTypeOf_bits t).symm.trans ((congrArg sensorTypeOf h).trans (sensorTypeOf_bits u)))

/-- Every TYPE operand but 2'd3 is the bits of a type (R32). -/
theorem exists_bits_eq {ty : BitVec 2} (h : ty ≠ 3#2) : ∃ t : SensorType, t.bits = ty := by
  have hcases : ty = 0#2 ∨ ty = 1#2 ∨ ty = 2#2 := by bv_omega
  obtain rfl | rfl | rfl := hcases
  · exact ⟨.gage, rfl⟩
  · exact ⟨.differential, rfl⟩
  · exact ⟨.absolute, rfl⟩

/-- CAL_DERIVE with a type's bits answers the calibration word of the type and the full scale (R55). -/
theorem exec_calDerive_bits (t : SensorType) (fs : Byte) (s : State) :
    exec (.calDerive t.bits fs) s = .next { s with responses := s.responses ++ [⟨false, calibWord t fs⟩] } := by
  rw [exec, execCalDerive, sensorTypeOf_bits]
  exact (respond_eq_next_iff _ s _).mpr rfl

/-- CAL_DERIVE with TYPE 2'd3 is refused with TYPE_INVALID (R55, R56). -/
theorem exec_calDerive_three (fs : Byte) (s : State) :
    exec (.calDerive 3#2 fs) s = .next { s with responses := s.responses ++ [⟨true, 0xB5#64⟩] } :=
  (raiseErr_eq_next_iff .typeInvalid opCalDerive s _).mpr rfl

/-- Settles O26: by the type that TYPE names, if there is one; PRESET_LOOKUP answers the same word for an entry's type
and scale; then by the reserved field of the word. -/
theorem calDeriveReturnsTheCalibration : Obligations.CalDeriveReturnsTheCalibration := by
  have hdecode {w : Word} (hop : w.extractLsb' 60 4 = 0xB#4) :=
    decode_of_op (i := .calDerive 0#2 0#8) hop rsvMask_calDerive (by decide)
  refine ⟨fun ty fs htype => ?_, exec_calDerive_three, fun pid e s hrom => ?_, ?_, ?_⟩
  · obtain ⟨t, rfl⟩ := exists_bits_eq htype
    refine ⟨calibWord t fs, fun hbits => ?_, fun hbits => ?_, exec_calDerive_bits t fs⟩
    · obtain rfl : t = .differential := SensorType.bits_injective hbits
      exact calibWord_differential fs
    · exact calibWord_of_ne_differential (fun ht => hbits (congrArg SensorType.bits ht)) fs
  · exact ⟨_, exec_calDerive_bits e.ty e.fs s, exec_presetLookup_of_some hrom s⟩
  · exact fun w hop hrsv => (hdecode hop).trans (if_pos hrsv)
  · exact fun w hop hrsv => (hdecode hop).trans (if_neg hrsv)

end Sys2Proof.Machine
end

section
/-! PROOFS. The refusal of requests (R56 to R58). -/

namespace Sys2Proof.Machine

/-! ## The cause of a refusal -/

/-- The cause of its own that an operation is refused for at a write index (R57). -/
def ownCause (v : BitVec 3) : Instr → Option Cause
  | .frmPush _ => if v = 7#3 then some .frameOverrun else none
  | .presetLookup pid => if rom pid = none then some .presetInvalid else none
  | .calDerive ty _ => if sensorTypeOf ty = none then some .typeInvalid else none
  | _ => none

/-- The cause a request word is refused for at a write index: the decoder's, or else the operation's own (R58). -/
def requestCause (v : BitVec 3) (w : Word) : Option Cause :=
  match decode w with
  | .reject r => some (rejectCause r)
  | .instr i => ownCause v i

theorem requestCause_of_instr {w : Word} {i : Instr} (h : decode w = .instr i) (v : BitVec 3) :
    requestCause v w = ownCause v i := by
  rw [requestCause, h]

theorem requestCause_of_reject {w : Word} {r : Reject} (h : decode w = .reject r) (v : BitVec 3) :
    requestCause v w = some (rejectCause r) := by
  rw [requestCause, h]

/-! ## The cause by the bits of the word -/

/-- R27's mask column is the decoder's mask for the word's OP. -/
theorem reservedBits_eq (w : Word) : reservedBits w = rsvMask (opField w) := by
  simp only [reservedBits, opField]
  generalize w.extractLsb' 60 4 = op
  revert op
  decide

/-- The ids without an entry are 7 and 15 (R53). -/
theorem rom_eq_none_iff (pid : BitVec 4) : rom pid = none ↔ pid ∈ [0x7#4, 0xF#4] := by
  revert pid
  decide

/-- The TYPE operand that names no type is 2'd3 (R32). -/
theorem sensorTypeOf_eq_none_iff (ty : BitVec 2) : sensorTypeOf ty = none ↔ ty = 3#2 := by
  revert ty
  decide

/-- An accepted word has neither of the decoder's causes, so its first cause is its operation's own (R57, R58). -/
theorem firstCause_of_decode {w : Word} {i : Instr} (h : decode w = .instr i) (v : BitVec 3) :
    firstCause v w = (ownCause v i).map Cause.code := by
  obtain ⟨hop, hoperands, hrsv⟩ := (decode_eq_instr_iff_fields w i).mp h
  have hreserved : w &&& reservedBits w = 0#64 := by rwa [reservedBits_eq, hop]
  rw [opField] at hop
  cases i with
  | frmPush b =>
    simp [firstCause, hreserved, hop, Instr.op, opFrmPush, ownCause, apply_ite, Cause.code]
  | presetLookup pid =>
    obtain rfl : w.extractLsb' 0 4 = pid := Instr.presetLookup.inj hoperands
    by_cases hrom : w.extractLsb' 0 4 ∈ [0x7#4, 0xF#4] <;>
      simp only [firstCause, hreserved, hop, hrom, ownCause, rom_eq_none_iff] <;> rfl
  | calDerive ty fs =>
    obtain ⟨rfl, -⟩ : w.extractLsb' 8 2 = ty ∧ _ := Instr.calDerive.inj hoperands
    simp [firstCause, hreserved, hop, Instr.op, opCalDerive, ownCause, sensorTypeOf_eq_none_iff, apply_ite, Cause.code]
  | _ =>
    rw [firstCause, hreserved, hop]
    rfl

/-- The first cause of a request by the bits of the word (R57, R58) is the cause that the decoder and the operation
find. -/
theorem firstCause_eq (v : BitVec 3) (w : Word) : firstCause v w = (requestCause v w).map Cause.code := by
  cases hdec : decode w with
  | instr i =>
    rw [requestCause_of_instr hdec]
    exact firstCause_of_decode hdec v
  | reject r =>
    rw [requestCause_of_reject hdec]
    cases r with
    | illegalOp => exact if_pos ((selectOp_eq_none_iff w).mp ((decode_eq_illegalOp_iff w).mp hdec))
    | rsvdNonzero =>
      obtain ⟨⟨i, hselect⟩, hrsv⟩ := (decode_eq_rsvdNonzero_iff w).mp hdec
      have hlegal : opField w ∉ [0x0#4, 0xC#4, 0xD#4, 0xE#4, 0xF#4] := by
        rw [← selectOp_eq_none_iff, hselect]
        nofun
      rw [← reservedBits_eq] at hrsv
      exact (if_neg hlegal).trans (if_pos hrsv)

/-! ## What a cause does -/

/-- An operation with a cause of its own raises it under its OP (R56, R57). -/
theorem exec_of_ownCause_some {i : Instr} {s : State} {c : Cause} (h : ownCause s.widx i = some c) :
    exec i s = raiseErr c i.op s := by
  cases i with
  | frmPush b =>
    obtain ⟨hwidx, ⟨⟩⟩ := Option.ite_none_right_eq_some.mp h
    exact if_pos hwidx
  | presetLookup pid =>
    obtain ⟨hrom, ⟨⟩⟩ := Option.ite_none_right_eq_some.mp h
    rw [exec, execPresetLookup, hrom]
    rfl
  | calDerive ty fs =>
    obtain ⟨htype, ⟨⟩⟩ := Option.ite_none_right_eq_some.mp h
    rw [exec, execCalDerive, htype]
    rfl
  | _ => cases h

/-- An operation without a cause of its own is answered with ERR 0 (R57). -/
theorem exec_of_ownCause_none {i : Instr} {s : State} (h : ownCause s.widx i = none) :
    ∃ (t : State) (d : Word), exec i s = .next t ∧ t.inbox = s.inbox ∧ t.responses = s.responses ++ [⟨false, d⟩] := by
  cases i with
  | frmPush b =>
    have hwidx : s.widx ≠ 7#3 := by simpa [ownCause] using h
    exact ⟨_, _, exec_frmPush_of_incomplete hwidx b, rfl, rfl⟩
  | presetLookup pid =>
    have hrom : rom pid ≠ none := by simpa [ownCause] using h
    obtain ⟨e, he⟩ := Option.ne_none_iff_exists'.mp hrom
    exact ⟨_, _, exec_presetLookup_of_some he s, rfl, rfl⟩
  | calDerive ty fs =>
    have htype : ty ≠ 3#2 := by simpa [ownCause, sensorTypeOf_eq_none_iff] using h
    obtain ⟨t, rfl⟩ := exists_bits_eq htype
    exact ⟨_, _, exec_calDerive_bits t fs s, rfl, rfl⟩
  | _ => exact ⟨_, _, rfl, rfl, rfl⟩

section
variable {s : State} {w : Word} {rest : List HostEvent} (hreq : s.inbox = .request w :: rest)
include hreq

/-- A request with a cause is refused for it: the ERR 1 response with the OP as received, and no other change (R56). -/
theorem step_of_requestCause_some {c : Cause} (h : requestCause s.widx w = some c) :
    step s = .next { s with inbox := rest, responses := s.responses ++ [⟨true, errorWord c (opField w)⟩] } := by
  cases hdec : decode w with
  | instr i =>
    rw [requestCause_of_instr hdec] at h
    rw [stepRunsTheDecodedInstruction s w rest i hreq hdec, opField_of_decode hdec]
    exact exec_of_ownCause_some h
  | reject r =>
    rw [requestCause_of_reject hdec] at h
    cases h
    simp only [step, hreq, hdec]
    rfl

/-- A request without a cause is answered with ERR 0 (R57). -/
theorem step_of_requestCause_none (h : requestCause s.widx w = none) :
    ∃ (t : State) (d : Word), step s = .next t ∧ t.inbox = rest ∧ t.responses = s.responses ++ [⟨false, d⟩] := by
  cases hdec : decode w with
  | instr i =>
    rw [requestCause_of_instr hdec] at h
    rw [stepRunsTheDecodedInstruction s w rest i hreq hdec]
    exact exec_of_ownCause_none h
  | reject r =>
    rw [requestCause_of_reject hdec] at h
    cases h

end

/-- Settles O6: the first cause by the word's bits is the one the step finds (`firstCause_eq`), and the step answers the
error word of a cause, or ERR 0 where there is none. -/
theorem requestIsRefusedExactlyForItsFirstCause : Obligations.RequestIsRefusedExactlyForItsFirstCause := by
  intro s w rest hreq
  rw [firstCause_eq]
  constructor
  · intro code hcode
    obtain ⟨c, hcause, rfl⟩ := Option.map_eq_some_iff.mp hcode
    exact ⟨_, step_of_requestCause_some hreq hcause, errorWord_fields c (opField w)⟩
  · intro hnone
    exact step_of_requestCause_none hreq (Option.map_eq_none_iff.mp hnone)

/-! ## The form of the responses -/

/-- An ERR 1 response with an error word has its form: a cause code and no bit above 7 (R56, R57). -/
theorem Response.legal_errorWord (c : Cause) (op : BitVec 4) : Response.Legal ⟨true, errorWord c op⟩ := by
  obtain ⟨hcode, -, hhigh⟩ := errorWord_fields c op
  obtain ⟨hlow, hup⟩ := c.code_range
  intro _
  rw [hcode]
  exact ⟨hlow, hup, hhigh⟩

/-- The form asks nothing of an ERR 0 response. -/
theorem Response.legal_of_ok (d : Word) : Response.Legal ⟨false, d⟩ := nofun

/-- A further response of that form keeps the form of all. -/
theorem ResponsesLegal.of_append {s t : State} {r : Response} (h : ResponsesLegal s) (hr : r.Legal)
    (ht : t.responses = s.responses ++ [r]) : ResponsesLegal t := by
  rw [ResponsesLegal, ht, List.forall_mem_append, List.forall_mem_singleton]
  exact ⟨h, hr⟩

/-- Settles O32: only a request adds a response, which has ERR 0 or is the error word of a cause. -/
theorem stepKeepsResponsesLegal : Obligations.StepKeepsResponsesLegal := by
  intro s t hlegal hstep
  match hinbox : s.inbox with
  | [] =>
    cases (blockNeverActsOnItsOwn s hinbox).symm.trans hstep
    exact hlegal
  | .reset :: rest =>
    simp only [step, hinbox, resetEvent_eq_next_iff] at hstep
    subst hstep
    exact hlegal
  | .request w :: rest =>
    cases hcause : requestCause s.widx w with
    | some c =>
      cases (step_of_requestCause_some hinbox hcause).symm.trans hstep
      exact hlegal.of_append (Response.legal_errorWord c (opField w)) rfl
    | none =>
      obtain ⟨u, d, hanswer, -, hresponses⟩ := step_of_requestCause_none hinbox hcause
      cases hanswer.symm.trans hstep
      exact hlegal.of_append (Response.legal_of_ok d) hresponses

/-- Settles O41: no response stands in the reset state. -/
theorem resetHasResponsesLegal : Obligations.ResetHasResponsesLegal := List.forall_mem_nil _

end Sys2Proof.Machine
end

section
/-! PROOFS. Reset and hazards (R65 to R73): the bytes at or above WIDX, the restart of a serial load, and the answer to
every request. -/

namespace Sys2Proof.Machine

/-! ## What a step leaves in the block -/

/-- The two states have the same FRAME and WIDX, which are all the block holds (R17). -/
def SameBlock (s t : State) : Prop := t.frame = s.frame ∧ t.widx = s.widx

/-- What an operation can leave in the block: what was there, a complete frame (FRM_LOAD), one byte pushed on an
incomplete one (FRM_PUSH), or the empty frame (FRM_CLEAR). -/
theorem exec_block_cases {i : Instr} {s t : State} (h : exec i s = .next t) :
    SameBlock s t ∨ t.widx = 7#3 ∨ (∃ b, s.widx ≠ 7#3 ∧ SameBlock (s.push b) t) ∨
      (i = .frmClear ∧ SameBlock s.clearFrame t) := by
  cases i with
  | frmLoad b0 b1 b2 b3 b4 b5 b6 =>
    cases (exec_frmLoad b0 b1 b2 b3 b4 b5 b6 s).symm.trans h
    exact .inr (.inl rfl)
  | frmPush b =>
    by_cases hwidx : s.widx = 7#3
    · cases (exec_frmPush_of_complete hwidx b).symm.trans h
      exact .inl ⟨rfl, rfl⟩
    · cases (exec_frmPush_of_incomplete hwidx b).symm.trans h
      exact .inr (.inr (.inl ⟨b, hwidx, rfl, rfl⟩))
  | frmClear =>
    cases (exec_frmClear s).symm.trans h
    exact .inr (.inr (.inr ⟨rfl, rfl, rfl⟩))
  | _ => exact .inl (exec_reading_keeps_block (Nat.le_of_ble_eq_true rfl) h)

/-- What a step can leave in the block: as an operation (`exec_block_cases`), where the empty frame comes from a reset
event (R65) or from FRM_CLEAR's word (R42). -/
theorem step_block_cases {s t : State} (h : step s = .next t) :
    SameBlock s t ∨ t.widx = 7#3 ∨ (∃ b, s.widx ≠ 7#3 ∧ SameBlock (s.push b) t) ∨
      (((∃ rest, s.inbox = .reset :: rest) ∨ ∃ rest, s.inbox = .request (encode .frmClear) :: rest) ∧
        SameBlock s.clearFrame t) := by
  obtain ⟨-, hidle⟩ | ⟨rest, hinbox, hreset⟩ | ⟨w, rest, i, hinbox, hdec, hexec⟩ | ⟨w, rest, r, -, -, hrefuse⟩ :=
    step_cases s
  · cases hidle.symm.trans h
    exact .inl ⟨rfl, rfl⟩
  · cases hreset.symm.trans h
    exact .inr (.inr (.inr ⟨.inl ⟨rest, hinbox⟩, rfl, rfl⟩))
  · obtain hkept | hfull | hpush | ⟨rfl, hclear⟩ := exec_block_cases (hexec.symm.trans h)
    · exact .inl hkept
    · exact .inr (.inl hfull)
    · exact .inr (.inr (.inl hpush))
    · rw [← decode_eq_instr_iff_encode.mp hdec] at hinbox
      exact .inr (.inr (.inr ⟨.inr ⟨rest, hinbox⟩, hclear⟩))
  · cases hrefuse.symm.trans h
    exact .inl ⟨rfl, rfl⟩

/-! ## Every step goes on (R73) -/

/-- Settles O33: of the four things a step can do (`step_cases`), an operation answers (`exec_answers_once`), and the
other three are next states as they stand. -/
theorem everyStepAnswersANextState : Obligations.EveryStepAnswersANextState := by
  intro s
  obtain ⟨-, hidle⟩ | ⟨rest, -, hreset⟩ | ⟨w, rest, i, -, -, hexec⟩ | ⟨w, rest, r, -, -, hrefuse⟩ := step_cases s
  · exact ⟨_, hidle⟩
  · exact ⟨_, hreset⟩
  · obtain ⟨t, r, ht, -, -⟩ := exec_answers_once i (s.setInbox rest)
    exact ⟨t, hexec.trans ht⟩
  · exact ⟨_, hrefuse⟩

/-- What every step keeps, a run keeps. -/
theorem runSteps_keeps {P : State → Prop} (hkeep : ∀ s t, P s → step s = .next t → P t) {n : Nat} {s t : State}
    (hs : P s) (hrun : runSteps n s = .next t) : P t := by
  induction n generalizing s with
  | zero =>
    cases hrun
    exact hs
  | succ n ih =>
    obtain ⟨u, hstep⟩ := everyStepAnswersANextState s
    exact ih (hkeep s u hs hstep) ((runSteps_succ_of_step hstep).symm.trans hrun)

/-! ## The bytes at or above WIDX (R67) -/

/-- The invariant speaks of FRAME and WIDX only. -/
theorem ZeroTail.of_sameBlock {s t : State} (hs : ZeroTail s) (h : SameBlock s t) : ZeroTail t := by
  obtain ⟨hframe, hwidx⟩ := h
  rwa [ZeroTail, hframe, hwidx]

/-- No byte of FRAME stands at or above WIDX 7. -/
theorem zeroTail_of_complete {s : State} (h : s.widx = 7#3) : ZeroTail s := by
  intro i hi
  rw [h] at hi
  exact absurd i.isLt (Nat.not_lt.mpr hi)

/-- The empty frame has the bytes at or above WIDX 8'h00. -/
theorem State.clearFrame_zeroTail (s : State) : ZeroTail s.clearFrame := fun i _ => Vector.getElem_replicate i.isLt

/-- Settles O29: each of the four things a step can leave in the block (`step_block_cases`) has the invariant. -/
theorem stepKeepsZeroTail : Obligations.StepKeepsZeroTail := by
  intro s t htail hstep
  obtain hkept | hfull | ⟨b, hwidx, hpush⟩ | ⟨-, hclear⟩ := step_block_cases hstep
  · exact htail.of_sameBlock hkept
  · exact zeroTail_of_complete hfull
  · exact (State.push_zeroTail hwidx b htail).of_sameBlock hpush
  · exact s.clearFrame_zeroTail.of_sameBlock hclear

/-- Settles O30: every FRAME byte is 8'h00 after reset (R18). -/
theorem resetHasZeroTail : Obligations.ResetHasZeroTail := fun i _ => State.reset_readFrame i

/-- Settles O31: the invariant holds at reset (O30) and every step keeps it (O29). -/
theorem everyReachableStateHasZeroTail : Obligations.EveryReachableStateHasZeroTail :=
  fun es _ _ hrun =>
    have hstart : ZeroTail { State.reset with inbox := es } := resetHasZeroTail.of_sameBlock ⟨rfl, rfl⟩
    runSteps_keeps stepKeepsZeroTail hstart hrun

/-! ## The restart of a serial load (R70) -/

/-- On a complete frame every operation but FRM_CLEAR leaves a complete frame (R70). -/
theorem exec_keeps_complete {i : Instr} {s t : State} (hwidx : s.widx = 7#3) (hi : i ≠ .frmClear)
    (h : exec i s = .next t) : t.widx = 7#3 := by
  obtain ⟨-, hkept⟩ | hfull | ⟨b, hpartial, -⟩ | ⟨hclear, -⟩ := exec_block_cases h
  · exact hkept.trans hwidx
  · exact hfull
  · exact absurd hwidx hpartial
  · exact absurd hclear hi

/-- A step that makes a complete frame incomplete took a reset event or FRM_CLEAR's word, and leaves WIDX 0 (R65,
R70). -/
theorem step_leaves_complete {s t : State} (hwidx : s.widx = 7#3) (hstep : step s = .next t) (ht : t.widx ≠ 7#3) :
    t.widx = 0#3 ∧
      ((∃ rest, s.inbox = .reset :: rest) ∨ ∃ rest, s.inbox = .request (encode .frmClear) :: rest) := by
  obtain ⟨-, hkept⟩ | hfull | ⟨b, hpartial, -⟩ | ⟨htook, -, hzero⟩ := step_block_cases hstep
  · exact absurd (hkept.trans hwidx) ht
  · exact absurd hfull ht
  · exact absurd hwidx hpartial
  · exact ⟨hzero, htook⟩

/-- Settles O12: FRM_LOAD and the seventh FRM_PUSH complete the frame, and only FRM_CLEAR or a reset event makes a
complete frame take a push again. -/
theorem serialLoadRestartsOnlyAfterClearOrReset : Obligations.SerialLoadRestartsOnlyAfterClearOrReset := by
  refine ⟨fun b0 b1 b2 b3 b4 b5 b6 s => ?_, fun b s h => ?_, fun b s h => exec_frmPush_of_complete h b,
    fun b s => ?_, fun i s h hi => ?_, fun s t h hstep ht => step_leaves_complete h hstep ht⟩
  · exact ⟨_, exec_frmLoad b0 b1 b2 b3 b4 b5 b6 s, rfl, rfl⟩
  · refine ⟨_, exec_frmPush_of_incomplete (by rw [h]; decide) b, ?_⟩
    exact congrArg (· + 1#3) h
  · exact ⟨_, _, exec_frmClear s, exec_frmPush_of_incomplete (show 0#3 ≠ 7#3 by decide) b, rfl, rfl⟩
  · obtain ⟨t, r, hexec, -, -⟩ := exec_answers_once i s
    exact ⟨t, hexec, exec_keeps_complete h hi hexec⟩

/-! ## The reset event (R65) -/

/-- Settles O28: the reset event and FRM_CLEAR both leave the empty frame, and the reset event adds no response. -/
theorem resetEventEmptiesTheFrameAndAnswersNothing : Obligations.ResetEventEmptiesTheFrameAndAnswersNothing := by
  rintro ⟨frame, widx, inbox, responses⟩ rest (rfl : inbox = _)
  exact ⟨step_of_reset ⟨frame, widx, [], responses⟩ rest, _, exec_frmClear _, rfl, rfl⟩

/-! ## The answer to every request (R73) -/

/-- A step takes the oldest event and adds as many responses as that event is requests: one or none (R29, R65). -/
theorem step_answers_event {s : State} {e : HostEvent} {es : List HostEvent} (h : s.inbox = e :: es) :
    ∃ (t : State) (new : List Response), step s = .next t ∧ t.inbox = es ∧ t.responses = s.responses ++ new ∧
      new.length + requestCount es = requestCount (e :: es) := by
  obtain ⟨t, hstep⟩ := everyStepAnswersANextState s
  obtain ⟨hinbox, hrequest, hreset⟩ := stepTakesOneEventAndAnswersEachRequestOnce s t hstep
  rw [h] at hinbox
  cases e with
  | reset =>
    have hkept : t.responses = s.responses ++ [] := by rw [hreset es h, List.append_nil]
    exact ⟨t, [], hstep, hinbox, hkept, Nat.zero_add _⟩
  | request w =>
    obtain ⟨r, hanswer⟩ := hrequest w es h
    exact ⟨t, [r], hstep, hinbox, hanswer, Nat.add_comm _ _⟩

/-- Settles O36, by induction on the events: each step takes one and answers it if it is a request. -/
theorem runAnswersEveryRequestOnce : Obligations.RunAnswersEveryRequestOnce := by
  intro s
  generalize hes : s.inbox = es
  induction es generalizing s with
  | nil => exact ⟨s, [], rfl, hes, (List.append_nil _).symm, rfl⟩
  | cons e es ih =>
    obtain ⟨t, first, hstep, hinbox, hfirst, hcount⟩ := step_answers_event hes
    obtain ⟨u, later, hrun, hdone, hlater, hlength⟩ := ih t hinbox
    refine ⟨u, first ++ later, (runSteps_succ_of_step hstep).trans hrun, hdone, ?_, ?_⟩
    · rw [hlater, hfirst, List.append_assoc]
    · rw [List.length_append, hlength, hcount]

/-! ## The decodes and the write index (R68) -/

/-- Settles O39: each response word is computed from FRAME alone, which another write index leaves as it is. -/
theorem decodesNeverLookAtTheWriteIndex : Obligations.DecodesNeverLookAtTheWriteIndex := by
  intro i s hi
  simp only [List.mem_cons, List.not_mem_nil, or_false] at hi
  obtain rfl | rfl | rfl | rfl | rfl := hi
  · exact ⟨stFieldsWord (s.readFrame 0), fun v => exec_stFields { s with widx := v }⟩
  · exact ⟨stCodeWord (s.readFrame 0), fun v => exec_stCode { s with widx := v }⟩
  · exact ⟨(pRaw s).setWidth 64, fun v => exec_pRaw { s with widx := v }⟩
  · exact ⟨(tRaw s).setWidth 64, fun v => exec_tRaw { s with widx := v }⟩
  · exact ⟨decodeAllWord s, fun v => exec_decodeAll { s with widx := v }⟩

end Sys2Proof.Machine
end
